-- ==== Sys2Proof/Word.lean ====
section
/-! DEFINITION. The plain data of the two blocks and of their environment: bytes, frames, commands, events,
readings, error kinds, the three word formats, and the values of the sensor store. -/

namespace Sys2Proof

/-- `RAW_W`, the width of `rawValue` (00_scope R7). -/
abbrev Config.rawW : Nat := 10
/-- The scale of a percentage, 100 (45_environment R174); percentages lie below it. -/
abbrev Config.percentScale : Nat := 100
/-- The width of a channel code, the high nibble of a byte (30_encoding R69). -/
abbrev Config.chanW : Nat := 4

/-- A byte: 8 bits, bit 0 the least significant (00_scope section 6). -/
abbrev Byte := BitVec 8

/-- The five states of the RX block, and no others (10_state R21, R23). -/
inductive ReceiveState where
  | idle
  | firstAckHeaderSeen
  | secondAckHeaderSeen
  | burstHeaderSeen
  | burstFirstByteSeen
deriving DecidableEq, Repr, Inhabited

/-- Which sensor a burst frame reports; `unmapped` carries the 4-bit code of a frame whose channel the source does
not assign (30_encoding R69, R73). -/
inductive SensorChannel where
  | slider
  | infrared
  | sound
  | button
  | resistiveInput (index : Fin 4)
  | unmapped (chan : BitVec Config.chanW)
deriving DecidableEq, Repr

/-- What a `Reading` event carries, and nothing else (41_rx_burst R118). -/
structure SensorReading where
  channel : SensorChannel
  rawValue : BitVec Config.rawW
deriving DecidableEq, Repr

/-- What one step of the RX block may return (10_state R28). -/
inductive DecodedEvent where
  | ack
  | reading (r : SensorReading)
deriving DecidableEq, Repr

/-- The two servos (42_tx_led_burst R130). -/
inductive Servo where
  | A
  | B
deriving DecidableEq, Repr

/-- The four commands (42_tx_led_burst R130). Positions are integer degrees (43_tx_servo R145), steps integers
(44_tx_stepper R155); both unbounded (log 6). -/
inductive Command where
  | setLed (mask : Byte) (on : Bool)
  | turnStepper (steps : Int)
  | setServo (which : Servo) (position : Int)
  | enableBurstMode
deriving DecidableEq, Repr

/-- A command frame, `b0` first on the wire (30_encoding R60, 20_memory R43). -/
structure Frame where
  b0 : Byte
  b1 : Byte
  b2 : Byte
  b3 : Byte
deriving DecidableEq, Repr

/-- The four error kinds, names only (60_exceptions R200). -/
inductive ErrorKind where
  | notReady
  | outOfRange
  | notResponding
  | transportClosed
deriving DecidableEq, Repr, Inhabited

/-- The result of one application of `encode`: frames in the order they are to be written, or the error
(42_tx_led_burst R130). -/
inductive TxResult where
  | frames (fs : List Frame)
  | error (e : ErrorKind)
deriving DecidableEq, Repr

/-- One instruction word in one of the three formats of spec/opcode_table.json (30_encoding R81, 20_memory R43, R44):
a command frame, a received 3-byte sequence, one received byte. -/
inductive Word where
  | tx4 (w : BitVec 32)
  | rx3 (v : BitVec 24)
  | rxb (b : Byte)
deriving DecidableEq, Repr

/-- The last-known values of the eight sensors (45_environment R176): percentages 0..99 and two Booleans. -/
structure SensorStore where
  slider : Fin Config.percentScale
  sound : Fin Config.percentScale
  resistive0 : Fin Config.percentScale
  resistive1 : Fin Config.percentScale
  resistive2 : Fin Config.percentScale
  resistive3 : Fin Config.percentScale
  infrared : Bool
  button : Bool
deriving DecidableEq, Repr, Inhabited

/-- A value of the store (45_environment R174, R175). -/
inductive SensorValue where
  | percent (p : Fin Config.percentScale)
  | flag (b : Bool)
deriving DecidableEq, Repr

/-- A change notification: channel identity and new value (45_environment R177). -/
structure Notification where
  channel : SensorChannel
  value : SensorValue
deriving DecidableEq, Repr

/-- The parity of the serial line (45_environment R171). -/
inductive Parity where
  | none
  | even
  | odd
deriving DecidableEq, Repr

/-- The flow control of the serial line (45_environment R171). -/
inductive FlowControl where
  | none
  | hardware
  | software
deriving DecidableEq, Repr

/-- The environment's open parameters of the sender (00_scope R7: `MAX_RETRIES`, `ACK_WINDOW`, `ACK_SLOT_STICKY`). -/
structure SenderParams where
  maxRetries : Nat
  ackWindow : Nat
  ackSlotSticky : Bool
deriving DecidableEq, Repr, Inhabited

end Sys2Proof
end

