-- ==== Sys2Proof/Config.lean ====
section
/-! DEFINITION. The parameters of 00_scope R7, each under its own name (R246), and the free values. -/

namespace Sys2Proof.Config

/-- `ACK_H1`, first ack header (00_scope R7, 30_encoding R66). -/
def ackH1 : Byte := 0x55#8
/-- `ACK_H2`, second ack header. -/
def ackH2 : Byte := 0xFF#8
/-- `ACK_B`, ack byte. -/
def ackB : Byte := 0xAA#8
/-- `BURST_H`, burst header. -/
def burstH : Byte := 0x0C#8
/-- `CMD_P0`, first prefix byte of a command frame (30_encoding R60, R61). -/
def cmdP0 : Byte := 0x54#8
/-- `CMD_P1`, second prefix byte. -/
def cmdP1 : Byte := 0xFE#8
/-- `OP_BURSTEN` (30_encoding R62). -/
def opBurstEn : Byte := 0xA0#8
/-- The constant payload of `EnableBurstMode` (30_encoding R63). -/
def burstEnPayload : Byte := 0xFF#8
/-- `OP_LED_OFF`. -/
def opLedOff : Byte := 0xC0#8
/-- `OP_LED_ON`. -/
def opLedOn : Byte := 0xC1#8
/-- `OP_SERVO`, the base OR-ed with `whichIndex`. -/
def opServo : Byte := 0xD0#8
/-- `OP_STEP`. -/
def opStep : Byte := 0xF0#8
/-- Servo index of `A`, fixed by the worked example (43_tx_servo R141). -/
def servoIndexA : Byte := 0x00#8
/-- Servo index of `B`, decision D6 (43_tx_servo R141; log 23). -/
def servoIndexB : Byte := 0x01#8
/-- `SERVO_MIN`. -/
def servoMin : Int := -90
/-- `SERVO_MAX`. -/
def servoMax : Int := 90
/-- The servo mapping's constants, `((position + 90) / 180.0) * 255 - 127` (43_tx_servo R142): the offset. -/
def servoOffset : Int := 90
/-- The servo mapping's divisor. -/
def servoSpan : Int := 180
/-- The servo mapping's factor. -/
def servoScale : Int := 255
/-- The servo mapping's subtrahend. -/
def servoCentre : Nat := 127
/-- The mask of `((buffer[0] << 8) & 0x3FF) | buffer[1]` (41_rx_burst R114), in the width of the shift. -/
def rawMask : BitVec 16 := 0x3FF#16
/-- The shift of the raw value (41_rx_burst R114). -/
def rawShift : Nat := 8
/-- The shift of the channel, `buffer[0] >> 4` (41_rx_burst R116). -/
def chanShift : Nat := 4
/-- The channel code map (30_encoding R69). -/
def chanSlider : BitVec chanW := 0
/-- Channel code of Infrared. -/
def chanInfrared : BitVec chanW := 1
/-- Channel code of Sound. -/
def chanSound : BitVec chanW := 2
/-- Channel code of Button. -/
def chanButton : BitVec chanW := 3
/-- Channel code of ResistiveInput(0). -/
def chanResistive0 : BitVec chanW := 4
/-- Channel code of ResistiveInput(1). -/
def chanResistive1 : BitVec chanW := 5
/-- Channel code of ResistiveInput(2). -/
def chanResistive2 : BitVec chanW := 6
/-- Channel code of ResistiveInput(3). -/
def chanResistive3 : BitVec chanW := 7
/-- The divisor of the percentage conversion, 1024 (45_environment R174). -/
def percentDivisor : Nat := 1024
/-- `STEP_CHUNK`, the largest magnitude of one stepper frame, decision D9 (44_tx_stepper R151; log 23). -/
def stepChunk : Nat := 127
/-- `STEPS_W`, default width of `steps` (44_tx_stepper R155); the model's `steps` is unbounded (log 6). -/
abbrev stepsW : Nat := 32
/-- `POS_W`, default width of the `position` port (43_tx_servo R145); the model's `position` is unbounded (log 6). -/
abbrev posW : Nat := 8
/-- `TX_FRAME_LEN`. -/
def txFrameLen : Nat := 4
/-- `RX_FRAME_LEN`. -/
def rxFrameLen : Nat := 3

/-- Serial line and timeouts, environment constants on which no rule of the blocks depends (45_environment R171). -/
def baud : Nat := 115200
def dataBits : Nat := 8
def stopBits : Nat := 1
/-- No parity (45_environment R171): no parity bit a byte. -/
def parity : Parity := .none
/-- No hardware or software flow control (45_environment R171). -/
def flowControl : FlowControl := .none
def readTimeoutMs : Nat := 500
def writeTimeoutMs : Nat := 500

/-- Free bytes: what the burst buffer holds after the `n`th draw at a reset (10_state R33; log 1). -/
opaque freeByte : Nat → Byte

/-- What the port `rd_chan` carries while `ev_reading = 0`, by `rx_valid` and `rx_byte` alone (10_state R24, R23, R35; log 25). -/
opaque idleRdChan : Bool → Byte → BitVec chanW

/-- What the port `rd_raw` carries while `ev_reading = 0` (log 25). -/
opaque idleRdRaw : Bool → Byte → BitVec rawW

/-- `STORE_INIT`, OPEN (45_environment R176; log 11). -/
opaque storeInit : SensorStore

/-- `MAX_RETRIES`, `ACK_WINDOW`, `ACK_SLOT_STICKY`, OPEN (45_environment R181, R184; log 11). -/
opaque senderParams : SenderParams

/-- The identifier of the transport that the controller of the initial condition was constructed with (45_environment R193;
log 26). -/
opaque transportId : Nat

/-- The error a command issued after the controller stopped receives: any failure (60_exceptions R203, U16; log 12). -/
opaque stoppedError : Nat → ErrorKind

end Sys2Proof.Config
end

