-- ==== Sys2Proof/Machine/Operands.lean ====
section
/-! DEFINITION. Operand and immediate assembly (30_encoding R70): the raw value and channel of a reading, the servo
mapping, the stepper split, two's complement bytes, the frame constructor and its byte order. -/

namespace Sys2Proof

/-- The bytes of a frame in wire order (20_memory R43). -/
def Frame.bytes (f : Frame) : List Byte := [f.b0, f.b1, f.b2, f.b3]

/-- The frame as one number, first byte most significant (20_memory R43). -/
def Frame.word (f : Frame) : BitVec 32 := f.b0 ++ f.b1 ++ f.b2 ++ f.b3

end Sys2Proof

namespace Sys2Proof.Machine

open Sys2Proof

/-- `tc8(n)`: the byte `n mod 256` (00_scope section 6; 43_tx_servo R143, 44_tx_stepper R152; log 23). -/
def tc8 (n : Int) : Byte := BitVec.ofInt 8 n

/-- A command frame: prefix, opcode, payload (30_encoding R60). -/
def commandFrame (op pl : Byte) : Frame := ⟨Config.cmdP0, Config.cmdP1, op, pl⟩

/-! ### The reading (41_rx_burst section 2) -/

/-- `rawValue = ((buffer[0] << 8) & 0x3FF) | buffer[1]`, shifted in 16 bits, 10 bits kept (41_rx_burst R114). -/
def rawValue (b0 b1 : Byte) : BitVec Config.rawW :=
  ((((b0.setWidth 16) <<< Config.rawShift) &&& Config.rawMask) ||| (b1.setWidth 16)).setWidth Config.rawW

/-- `chan = b0[7:4]` (41_rx_burst R116). -/
def channelCode (b0 : Byte) : BitVec Config.chanW := b0.extractLsb' Config.chanShift Config.chanW

/-- The channel of a 4-bit code (30_encoding R69); codes 8 to 15 are `Unmapped` and keep the code (R73, 41_rx_burst R117). -/
def channelOfCode (c : BitVec Config.chanW) : SensorChannel :=
  if c = Config.chanSlider then .slider
  else if c = Config.chanInfrared then .infrared
  else if c = Config.chanSound then .sound
  else if c = Config.chanButton then .button
  else if c = Config.chanResistive0 then .resistiveInput 0
  else if c = Config.chanResistive1 then .resistiveInput 1
  else if c = Config.chanResistive2 then .resistiveInput 2
  else if c = Config.chanResistive3 then .resistiveInput 3
  else .unmapped c

/-- `channel(buf[0])` (41_rx_burst R116, R117). -/
def channelOf (b0 : Byte) : SensorChannel := channelOfCode (channelCode b0)

/-- The reading of a burst payload (41_rx_burst R112). -/
def readingOf (b0 b1 : Byte) : SensorReading := ⟨channelOf b0, rawValue b0 b1⟩

/-! ### The servo (43_tx_servo) -/

/-- `whichIndex` (43_tx_servo R141). -/
def whichIndex : Servo → Byte
  | .A => Config.servoIndexA
  | .B => Config.servoIndexB

/-- The servo's opcode byte `0xD0 | whichIndex` (30_encoding R62). -/
def servoOpcode (which : Servo) : Byte := Config.opServo ||| whichIndex which

/-- The LED's opcode byte, `on ? 0xC1 : 0xC0` (42_tx_led_burst R132). -/
def ledOpcode (on : Bool) : Byte := if on then Config.opLedOn else Config.opLedOff

/-- `round(x) = ceil(x - 1/2)` of `x = (position + 90) * 255 / 180`, nearest integer, ties down (43_tx_servo R142, decision
D7; log 23): the ceiling of a fraction over `2 * 180`, whichever the three constants. The law `servoRound_eq` gives R142's own
integer form. -/
def servoRound (position : Int) : Int :=
  (2 * Config.servoScale * (position + Config.servoOffset) + (Config.servoSpan - 1)) / (2 * Config.servoSpan)

/-- `pos' = round(x) - 127` (43_tx_servo R142). -/
def servoPos (position : Int) : Int := servoRound position - Config.servoCentre

/-- The servo payload byte `tc8(pos')` (43_tx_servo R143). -/
def servoPayload (position : Int) : Byte := tc8 (servoPos position)

/-- The range check of `SetServo`, bounds inclusive (43_tx_servo R144). -/
def servoInRange (position : Int) : Bool := decide (Config.servoMin ≤ position ∧ position ≤ Config.servoMax)

/-- The position a payload byte belongs to, or none for the 75 bytes the mapping does not reach (43_tx_servo R146,
30_encoding R76). The candidate is the least position with `x > q - 1/2`, whose `round(x)` is the
first to reach `q`. -/
def positionOfPayload (pl : Byte) : Option Int :=
  let q : Int := ((pl.toNat + Config.servoCentre) % 2 ^ 8 : Nat)
  let position : Int := (2 * q - 1) * Config.servoSpan / (2 * Config.servoScale) + 1 - Config.servoOffset
  if servoInRange position && servoPayload position == pl then some position else none

/-! ### The stepper (44_tx_stepper) -/

/-- `sgn(n)`: +1 for `n ≥ 0`, else −1 (00_scope section 6). -/
def sgn (n : Int) : Int := if 0 ≤ n then 1 else -1

/-- The number of frames of a turn, `max(1, ceil(|steps| / 127))` (44_tx_stepper R153). -/
def stepperFrameCount (steps : Int) : Nat :=
  max 1 ((steps.natAbs + (Config.stepChunk - 1)) / Config.stepChunk)

/-- The counts of the frames of a turn: full chunks, then the remainder (44_tx_stepper R150, R153, R154). -/
def stepperCounts (steps : Int) : List Int :=
  let n := stepperFrameCount steps
  let full : Int := sgn steps * Config.stepChunk
  List.replicate (n - 1) full ++ [steps - full * ((n - 1 : Nat) : Int)]

/-- The symmetric clamp of the sequential formulation (44_tx_stepper R156). -/
def clampChunk (rem : Int) : Int :=
  if rem > Config.stepChunk then Config.stepChunk
  else if rem < -(Config.stepChunk : Int) then -(Config.stepChunk : Int)
  else rem

/-- The loop of the sequential formulation with its private register `rem`; each count with its `last` mark. Fuel bounds
the passes (44_tx_stepper R156). -/
def stepperLoop : Nat → Int → List (Int × Bool)
  | 0, _ => []
  | fuel + 1, rem =>
    let c := clampChunk rem
    if rem = c then [(c, true)] else (c, false) :: stepperLoop fuel (rem - c)

/-- The sequential formulation of the split (44_tx_stepper R156); not what the machine runs. -/
def stepperSequential (steps : Int) : List (Int × Bool) := stepperLoop (steps.natAbs + 1) steps

/-- One stepper frame, `STEP c` (44_tx_stepper R152, 30_encoding R79). -/
def stepFrame (c : Int) : Frame := commandFrame Config.opStep (tc8 c)

end Sys2Proof.Machine
end

