-- ==== Sys2Proof/Syntax.lean ====
section
/-! DEFINITION. The instructions: one constructor per row of spec/opcode_table.json. -/

namespace Sys2Proof

/-- One constructor per row of spec/opcode_table.json. TX4 rows are commands of the TX block (30_encoding R79); `stepper`
is the row `STEP` while `|steps| ≤ 127` and the command `TURN steps`, which expands to `STEP` frames, beyond (R80; log 6).
RX3 rows stand for three `RX` steps (R79). RXB rows are the nine transitions of 40_rx_ack R90; a row for a class of bytes
carries the byte. -/
inductive Instr where
  | setled (mask : Byte) (on : Bool)
  | bursten
  | servo (which : Servo) (position : Int)
  | stepper (steps : Int)
  | ackseq
  | burst (b0 b1 : Byte)
  | rxIdleAckH1
  | rxIdleBurstH
  | rxIdleOther (b : Byte)
  | rxA1AckH2
  | rxA1Other (b : Byte)
  | rxA2Ack
  | rxA2Other (b : Byte)
  | rxB0Any (b : Byte)
  | rxB1Any (b : Byte)
deriving DecidableEq, Repr

/-- The instruction a command is (30_encoding R79). -/
def Instr.ofCommand : Command → Instr
  | .setLed mask on => .setled mask on
  | .turnStepper steps => .stepper steps
  | .setServo which position => .servo which position
  | .enableBurstMode => .bursten

/-- The state of the RX block that an RXB row belongs to (30_encoding R81); none for the other formats. -/
def Instr.rowState : Instr → Option ReceiveState
  | .setled _ _ => none
  | .bursten => none
  | .servo _ _ => none
  | .stepper _ => none
  | .ackseq => none
  | .burst _ _ => none
  | .rxIdleAckH1 => some .idle
  | .rxIdleBurstH => some .idle
  | .rxIdleOther _ => some .idle
  | .rxA1AckH2 => some .firstAckHeaderSeen
  | .rxA1Other _ => some .firstAckHeaderSeen
  | .rxA2Ack => some .secondAckHeaderSeen
  | .rxA2Other _ => some .secondAckHeaderSeen
  | .rxB0Any _ => some .burstHeaderSeen
  | .rxB1Any _ => some .burstFirstByteSeen

end Sys2Proof
end

