-- ==== Sys2Proof/WellFormed.lean ====
section
/-! DEFINITION. Which instructions have a word of spec/opcode_table.json, and which commands fit the suggested ports. -/

namespace Sys2Proof

/-- An instruction is well formed when the table has a word for it: a servo position in range (43_tx_servo R144), a
single stepper frame (44_tx_stepper R151, 30_encoding R79), a byte of the row's class (30_encoding R81). -/
def Instr.wf : Instr → Bool
  | .setled _ _ => true
  | .bursten => true
  | .servo _ position => decide (Config.servoMin ≤ position ∧ position ≤ Config.servoMax)
  | .stepper steps => decide (-(Config.stepChunk : Int) ≤ steps ∧ steps ≤ (Config.stepChunk : Int))
  | .ackseq => true
  | .burst _ _ => true
  | .rxIdleAckH1 => true
  | .rxIdleBurstH => true
  | .rxIdleOther b => b != Config.ackH1 && b != Config.burstH
  | .rxA1AckH2 => true
  | .rxA1Other b => b != Config.ackH2
  | .rxA2Ack => true
  | .rxA2Other b => b != Config.ackB
  | .rxB0Any _ => true
  | .rxB1Any _ => true

/-- A command whose operands can be presented at the suggested ports of default width (10_state R35, 43_tx_servo R145,
44_tx_stepper R155). The machine does not ask for it: its integers are unbounded (log 6). -/
def Command.fitsPorts : Command → Bool
  | .setLed _ _ => true
  | .turnStepper steps => decide (-(2 ^ (Config.stepsW - 1)) ≤ steps ∧ steps < 2 ^ (Config.stepsW - 1))
  | .setServo _ position => decide (-(2 ^ (Config.posW - 1)) ≤ position ∧ position < 2 ^ (Config.posW - 1))
  | .enableBurstMode => true

end Sys2Proof
end

