-- ==== Sys2Proof/Decode.lean ====
section
/-! DEFINITION. Decoding of words, total, rejecting by name; the encoder; and the opcode table as data. Selecting an RXB
row needs the state of the RX block beside the byte (30_encoding R81), so the decoder takes it. -/

namespace Sys2Proof

open Sys2Proof.Machine

/-- Why a word is refused (log 7). -/
inductive DecodeError where
  /-- Bytes 0 and 1 are not `0x54, 0xFE` (30_encoding R75). -/
  | notCommandFrame
  /-- Byte 2 is none of the six opcodes (30_encoding R75). -/
  | unknownOpcode
  /-- Opcode `0xA0` with a payload other than `0xFF` (30_encoding R75). -/
  | badBurstEnablePayload
  /-- A well-formed servo frame whose payload no position gives (30_encoding R76). -/
  | servoPayloadNeverProduced
  /-- The stepper payload `0x80` (30_encoding R76). -/
  | stepperPayloadNeverProduced
  /-- A 3-byte word that is neither the ack sequence nor a burst frame (30_encoding R65). -/
  | notReceivedSequence
deriving DecidableEq, Repr

/-- What the checking parser reads from a well-formed command frame (30_encoding R75). -/
inductive ParsedFrame where
  | led (on : Bool) (mask : Byte)
  | burstEnable
  | servo (which : Servo) (pl : Byte)
  | stepper (pl : Byte)
deriving DecidableEq, Repr

/-- Whether a word is received (fed to the RX block) rather than a command frame. -/
def Word.received : Word → Bool
  | .tx4 _ => false
  | .rx3 _ => true
  | .rxb _ => true

/-- The bytes of a 32-bit word, first byte most significant (20_memory R43). -/
def Frame.ofWord (w : BitVec 32) : Frame :=
  ⟨w.extractLsb' 24 8, w.extractLsb' 16 8, w.extractLsb' 8 8, w.extractLsb' 0 8⟩

/-- The checking parser of command frames (30_encoding R75): it accepts every well-formed frame, also those the TX block
never produces (R76). -/
def parseFrame (f : Frame) : Except DecodeError ParsedFrame :=
  if f.b0 ≠ Config.cmdP0 ∨ f.b1 ≠ Config.cmdP1 then .error .notCommandFrame
  else if f.b2 = Config.opBurstEn then
    if f.b3 = Config.burstEnPayload then .ok .burstEnable else .error .badBurstEnablePayload
  else if f.b2 = Config.opLedOff then .ok (.led false f.b3)
  else if f.b2 = Config.opLedOn then .ok (.led true f.b3)
  else if f.b2 = servoOpcode .A then .ok (.servo .A f.b3)
  else if f.b2 = servoOpcode .B then .ok (.servo .B f.b3)
  else if f.b2 = Config.opStep then .ok (.stepper f.b3)
  else .error .unknownOpcode

/-- The instruction of a servo frame whose payload belongs to a position, or to none (30_encoding R76). -/
def servoInstr (which : Servo) : Option Int → Except DecodeError Instr
  | some position => .ok (.servo which position)
  | none => .error .servoPayloadNeverProduced

/-- The command a parsed frame is the frame of (30_encoding R63, R76). -/
def ParsedFrame.instr : ParsedFrame → Except DecodeError Instr
  | .led on mask => .ok (.setled mask on)
  | .burstEnable => .ok .bursten
  | .servo which pl => servoInstr which (positionOfPayload pl)
  | .stepper pl =>
    if pl.toInt < -(Config.stepChunk : Int) then .error .stepperPayloadNeverProduced
    else .ok (.stepper pl.toInt)

/-- The instruction of a TX4 word (30_encoding R60 to R63). -/
def decodeTx4 (w : BitVec 32) : Except DecodeError Instr :=
  match parseFrame (Frame.ofWord w) with
  | .ok p => p.instr
  | .error e => .error e

/-- The instruction of an RX3 word `V = h<<16 | b0<<8 | b1` (20_memory R44, 30_encoding R66 to R68). -/
def decodeRx3 (v : BitVec 24) : Except DecodeError Instr :=
  let h : Byte := v.extractLsb' 16 8
  let b0 : Byte := v.extractLsb' 8 8
  let b1 : Byte := v.extractLsb' 0 8
  if h = Config.burstH then .ok (.burst b0 b1)
  else if h = Config.ackH1 ∧ b0 = Config.ackH2 ∧ b1 = Config.ackB then .ok .ackseq
  else .error .notReceivedSequence

/-- The RXB row that a state and a byte select; total, the larger mask first (30_encoding R81). -/
def decodeRxb (rs : ReceiveState) (b : Byte) : Instr :=
  match rs with
  | .idle =>
    if b = Config.ackH1 then .rxIdleAckH1 else if b = Config.burstH then .rxIdleBurstH else .rxIdleOther b
  | .firstAckHeaderSeen => if b = Config.ackH2 then .rxA1AckH2 else .rxA1Other b
  | .secondAckHeaderSeen => if b = Config.ackB then .rxA2Ack else .rxA2Other b
  | .burstHeaderSeen => .rxB0Any b
  | .burstFirstByteSeen => .rxB1Any b

/-- The decoder: total on any word in any state of the RX block; only the RXB format looks at the state. -/
def decode (rs : ReceiveState) : Word → Except DecodeError Instr
  | .tx4 w => decodeTx4 w
  | .rx3 v => decodeRx3 v
  | .rxb b => .ok (decodeRxb rs b)

/-- The encoder: the word of a well-formed instruction (30_encoding R60 to R68). -/
def encode : Instr → Word
  | .setled mask on => .tx4 (commandFrame (ledOpcode on) mask).word
  | .bursten => .tx4 (commandFrame Config.opBurstEn Config.burstEnPayload).word
  | .servo which position => .tx4 (commandFrame (servoOpcode which) (servoPayload position)).word
  | .stepper steps => .tx4 (stepFrame steps).word
  | .ackseq => .rx3 (Config.ackH1 ++ Config.ackH2 ++ Config.ackB)
  | .burst b0 b1 => .rx3 (Config.burstH ++ b0 ++ b1)
  | .rxIdleAckH1 => .rxb Config.ackH1
  | .rxIdleBurstH => .rxb Config.burstH
  | .rxIdleOther b => .rxb b
  | .rxA1AckH2 => .rxb Config.ackH2
  | .rxA1Other b => .rxb b
  | .rxA2Ack => .rxb Config.ackB
  | .rxA2Other b => .rxb b
  | .rxB0Any b => .rxb b
  | .rxB1Any b => .rxb b

/-- The state of the RX block in which the table's row for a byte alone stands: that of the row with the full mask for it,
`Idle` for any other byte (30_encoding R81; log 4). -/
def rowStateOfByte (b : Byte) : ReceiveState :=
  if b = Config.ackH1 ∨ b = Config.burstH then .idle
  else if b = Config.ackH2 then .firstAckHeaderSeen
  else if b = Config.ackB then .secondAckHeaderSeen
  else .idle

/-- The word of `nbits` bits that the table numbers `w`. -/
def tableWord (nbits w : Nat) : Option Word :=
  if nbits = 32 then some (.tx4 (BitVec.ofNat 32 w))
  else if nbits = 24 then some (.rx3 (BitVec.ofNat 24 w))
  else if nbits = 8 then some (.rxb (BitVec.ofNat 8 w))
  else none

/-- The state in which the table reads a word: for an RXB word that of its row, else any (log 4). -/
def tableState : Word → ReceiveState
  | .tx4 _ => .idle
  | .rx3 _ => .idle
  | .rxb b => rowStateOfByte b

/-- The instruction the decoder reads from a word of the table, numbered as the table numbers it (log 4). -/
def decodeTableWord (nbits w : Nat) : Option Instr :=
  match tableWord nbits w with
  | some x => (decode (tableState x) x).toOption
  | none => none

/-- The value of a word as the table numbers it. -/
def Word.toNat : Word → Nat
  | .tx4 w => w.toNat
  | .rx3 v => v.toNat
  | .rxb b => b.toNat

/-- A row of spec/opcode_table.json: mnemonic, width in bits, the state an RXB row belongs to, match and mask. -/
structure OpcodeRow where
  mnemonic : String
  width : Nat
  state : Option ReceiveState
  matchBits : Nat
  mask : Nat
deriving DecidableEq, Repr

/-- The row of spec/opcode_table.json that a constructor stands for, copied from the table. -/
def Instr.row : Instr → OpcodeRow
  | .setled _ _ => ⟨"SETLED", 32, none, 0x54FEC000, 0xFFFFFE00⟩
  | .bursten => ⟨"BURSTEN", 32, none, 0x54FEA0FF, 0xFFFFFFFF⟩
  | .servo _ _ => ⟨"SERVO", 32, none, 0x54FED000, 0xFFFFFE00⟩
  | .stepper _ => ⟨"STEP", 32, none, 0x54FEF000, 0xFFFFFF00⟩
  | .ackseq => ⟨"ACKSEQ", 24, none, 0x55FFAA, 0xFFFFFF⟩
  | .burst _ _ => ⟨"BURST", 24, none, 0x0C0000, 0xFF0000⟩
  | .rxIdleAckH1 => ⟨"RX.IDLE.ACKH1", 8, some .idle, 0x55, 0xFF⟩
  | .rxIdleBurstH => ⟨"RX.IDLE.BURSTH", 8, some .idle, 0x0C, 0xFF⟩
  | .rxIdleOther _ => ⟨"RX.IDLE.OTHER", 8, some .idle, 0x00, 0x00⟩
  | .rxA1AckH2 => ⟨"RX.A1.ACKH2", 8, some .firstAckHeaderSeen, 0xFF, 0xFF⟩
  | .rxA1Other _ => ⟨"RX.A1.OTHER", 8, some .firstAckHeaderSeen, 0x00, 0x00⟩
  | .rxA2Ack => ⟨"RX.A2.ACK", 8, some .secondAckHeaderSeen, 0xAA, 0xFF⟩
  | .rxA2Other _ => ⟨"RX.A2.OTHER", 8, some .secondAckHeaderSeen, 0x00, 0x00⟩
  | .rxB0Any _ => ⟨"RX.B0.ANY", 8, some .burstHeaderSeen, 0x00, 0x00⟩
  | .rxB1Any _ => ⟨"RX.B1.ANY", 8, some .burstFirstByteSeen, 0x00, 0x00⟩

/-- The width of a word in bits. -/
def Word.width : Word → Nat
  | .tx4 _ => 32
  | .rx3 _ => 24
  | .rxb _ => 8

/-- A word lies in a row: the row's width, and the row's bits under its mask. -/
def OpcodeRow.holds (r : OpcodeRow) (w : Word) : Bool :=
  w.width == r.width && (w.toNat &&& r.mask) == r.matchBits

end Sys2Proof
end

