-- ==== Sys2Proof/Machine/State.lean ====
section
/-! DEFINITION. The state of the machine: the RX block's three registers, the outputs of the two blocks, the environment
they live in, and what the outside world does next. Plain data; there is no addressable memory (20_memory R42; log 24). -/

namespace Sys2Proof.Machine

/-- The machine never faults: the RX block "never waits, never faults, never refuses a byte" (10_state R36) and an error of
the TX block is a returned result (60_exceptions R210). No constructor, so nothing raises one; safe (log 21). -/
inductive Fault
deriving DecidableEq, Repr

/-- Why the machine has no meaning for what it was given. -/
inductive Refusal where
  /-- Raised by `exec` for an instruction without a meaning; no arm does. Safe. -/
  | notModelled (mnemonic : String)
  /-- Raised by `runWord` for a word the decoder refuses (30_encoding R75, R76). Safe: no run goes on (log 7). -/
  | undecodable (e : DecodeError)
deriving DecidableEq, Repr

/-- The controller's lifecycle (45_environment R186). -/
inductive Lifecycle where
  | starting
  | ready
  | stopped
deriving DecidableEq, Repr

/-- What a caller of the controller gets back (45_environment R193). -/
inductive CmdResult where
  | ok
  | failed (e : ErrorKind)
deriving DecidableEq, Repr

/-- One command with the result its caller got. -/
structure CmdOutcome where
  command : Command
  result : CmdResult
deriving DecidableEq, Repr

/-- Who issued a send: the controller's handshake or a caller's command (45_environment R187, R190). -/
inductive SendSource where
  | handshake
  | caller (c : Command)
deriving DecidableEq, Repr

/-- The wait of a send: until `deadline`, or its window has elapsed and the sender has not yet acted (45_environment R179,
R180, R184). -/
inductive WaitPhase where
  | waiting (deadline : Nat)
  | lapsed
deriving DecidableEq, Repr

/-- The one outstanding send (45_environment R180): the frame written last, the later frames, and the retries so far. -/
structure PendingSend where
  frame : Frame
  rest : List Frame
  retries : Nat
  phase : WaitPhase
  source : SendSource
deriving DecidableEq, Repr

/-- A caller waiting to enter the send-wait section, its command accepted and encoded (45_environment R190; log 15). -/
structure BlockedCall where
  command : Command
  frames : List Frame
deriving DecidableEq, Repr

/-- One subscription to the notifications of a channel, with what it has received, oldest first (45_environment R193, R177;
log 27). -/
structure Subscription where
  channel : SensorChannel
  received : List Notification
deriving DecidableEq, Repr

/-- The environment of the two blocks (45_environment); none of it is readable or writable by them (10_state R31). -/
structure Env where
  ctrl : Lifecycle
  handshakeSent : Bool
  handshakeResult : Option CmdResult
  store : SensorStore
  notices : List Notification
  subscriptions : List Subscription
  pending : Option PendingSend
  ackSlot : Bool
  blocked : List BlockedCall
  txStream : List Byte
  results : List CmdOutcome
  writeFails : Bool
  transportId : Nat
  now : Nat
  draws : Nat
deriving DecidableEq, Repr

/-- What may happen in the environment between bytes (45_environment R172, R185 to R192; log 8). -/
inductive EnvInput where
  /-- A caller issues a command to the controller (R188). -/
  | issue (c : Command)
  /-- The controller performs the start-up handshake (R187). -/
  | handshake
  /-- The sender looks at its handoff slot and its wait (R179). -/
  | sender
  /-- The blocked caller number `k` may enter the send-wait section if it is free (R190). -/
  | grant (k : Nat)
  /-- One unit of time passes (R179). -/
  | tick
  /-- A caller subscribes to a channel's notifications (R193). -/
  | subscribe (ch : SensorChannel)
  /-- The receive loop's read fails (R189). -/
  | readError
  /-- The transport's next write will fail (R172). -/
  | failWrite
  /-- The explicit shutdown operation (R192). -/
  | shutdown
deriving DecidableEq, Repr

/-- What the outside world does next (log 3). -/
inductive Input where
  /-- A word of the opcode table: received bytes for the RX block, or a command frame's word for the TX block. -/
  | word (w : Word)
  /-- A caller applies the TX block to a command (42_tx_led_burst R130). -/
  | apply (c : Command)
  /-- The transport's bounded read returned without a byte (40_rx_ack R98). -/
  | noByte
  /-- Reset of the RX block (10_state R34). -/
  | reset
  /-- A controller is constructed with a transport identifier (45_environment R186, R193; log 26). -/
  | construct (transport : Nat)
  /-- An event of the environment. -/
  | env (e : EnvInput)
deriving DecidableEq, Repr

/-- The state. `rs`, `buf0`, `buf1` are all the state the hardware has (10_state R20, R29); the rest is its outputs (log 2),
its environment (45_environment), its inputs (log 3) and the counter of free bytes (log 1). -/
structure State where
  rs : ReceiveState
  buf0 : Byte
  buf1 : Byte
  emitted : List DecodedEvent
  returned : List TxResult
  delivered : List DecodedEvent
  env : Env
  inputs : List Input
  draws : Nat
deriving DecidableEq, Repr

/-- The environment's initial condition (70_reset_and_hazards R231; log 11, log 22): a controller just constructed, its
transport open and its receive loop running, since the RX block is fed in all of `Starting` (45_environment R186). That opening
cannot fail is the model's choice (R172 gives `open` no failure; log 26). -/
def Env.reset : Env :=
  { ctrl := .starting
    handshakeSent := false
    handshakeResult := none
    store := Config.storeInit
    notices := []
    subscriptions := []
    pending := none
    ackSlot := false
    blocked := []
    txStream := []
    results := []
    writeFails := false
    transportId := Config.transportId
    now := 0
    draws := 0 }

/-- The machine right after reset: `rs = Idle`, the buffer an arbitrary draw, no event (10_state R32, R33,
70_reset_and_hazards R230, R231; log 1, log 22). -/
def State.reset : State :=
  { rs := .idle
    buf0 := Config.freeByte 0
    buf1 := Config.freeByte 1
    emitted := []
    returned := []
    delivered := []
    env := Env.reset
    inputs := []
    draws := 2 }

end Sys2Proof.Machine
end

