-- ==== Sys2Proof/Machine/Ops.lean ====
section
/-! DEFINITION. The shared operations over the registers and outputs of the two blocks: the whole step function of the RX
block, its reset, and the two results of the TX block, the error among them. -/

namespace Sys2Proof.Machine

open Sys2Proof

/-- `rs <- r` (10_state R22). -/
def State.goto (r : ReceiveState) (s : State) : State := { s with rs := r }

/-- `buf[0] <- b` (10_state R24). -/
def State.storeBuf0 (b : Byte) (s : State) : State := { s with buf0 := b }

/-- `buf[1] <- b` (10_state R24). -/
def State.storeBuf1 (b : Byte) (s : State) : State := { s with buf1 := b }

/-- `emit e`: the event is an output of this step (10_state R28; log 2). -/
def State.emit (e : DecodedEvent) (s : State) : State := { s with emitted := s.emitted ++ [e] }

/-- `emit Reading(channel(buf[0]), raw(buf[0], buf[1]))` (41_rx_burst R112). -/
def State.emitReading (s : State) : State := s.emit (.reading (readingOf s.buf0 s.buf1))

/-- One step of the RX block on a byte, the listing of 40_rx_ack R90. -/
def feed (b : Byte) (s : State) : State :=
  match s.rs with
  | .idle =>
    if b = Config.ackH1 then s.goto .firstAckHeaderSeen
    else if b = Config.burstH then s.goto .burstHeaderSeen
    else s.goto .idle
  | .firstAckHeaderSeen =>
    if b = Config.ackH2 then s.goto .secondAckHeaderSeen else s.goto .idle
  | .secondAckHeaderSeen =>
    if b = Config.ackB then (s.goto .idle).emit .ack else s.goto .idle
  | .burstHeaderSeen => (s.storeBuf0 b).goto .burstFirstByteSeen
  | .burstFirstByteSeen => ((s.storeBuf1 b).goto .idle).emitReading

/-- A byte sequence fed in order, one step a byte (20_memory R48, R52). -/
def feedAll : List Byte → State → State
  | [], s => s
  | b :: bs, s => feedAll bs (feed b s)

/-- A row of the transition table, run on its byte: where the row is the one `(rs, b)` selects (30_encoding R81) its own
effect, else the byte is fed like any other (10_state R36; log 5). -/
def rxRow (applies : Bool) (b : Byte) (effect : State) (s : State) : Host.Outcome State Fault Refusal :=
  if applies then .next effect else .next (feed b s)

/-- Reset of the RX block: `rs <- Idle`, the buffer unspecified, no event (10_state R32 to R34, 70_reset_and_hazards R230;
log 1, log 20). -/
def rxReset (s : State) : State :=
  { s with rs := .idle, buf0 := Config.freeByte s.draws, buf1 := Config.freeByte (s.draws + 1), draws := s.draws + 2 }

/-- The TX block returns a result to its caller (42_tx_led_burst R130; log 2). -/
def State.returnTx (r : TxResult) (s : State) : State := { s with returned := s.returned ++ [r] }

/-- Taking the one exception of the hardware: "the return of the error result to the caller, nothing more"
(60_exceptions R210). There is nothing to save and no return from it (R212). -/
def State.raise (e : ErrorKind) (s : State) : State := s.returnTx (.error e)

/-- The outcome of a command of the TX block: its frames or its error (42_tx_led_burst R130, 60_exceptions R210). -/
def txOutcome (r : TxResult) (s : State) : Host.Outcome State Fault Refusal :=
  match r with
  | .frames fs => .next (s.returnTx (.frames fs))
  | .error e => .next (s.raise e)

end Sys2Proof.Machine
end

