-- ==== Sys2Proof/Machine/TxLedBurst.lean ====
section
/-! DEFINITION. The single-frame commands SetLed and EnableBurstMode (42_tx_led_burst). -/

namespace Sys2Proof.Machine

open Sys2Proof

/-- `encode(SetLed(mask, on))` (42_tx_led_burst R132). -/
def encodeSetLed (mask : Byte) (on : Bool) : TxResult := .frames [commandFrame (ledOpcode on) mask]

/-- `encode(EnableBurstMode)` (42_tx_led_burst R133). -/
def encodeEnableBurstMode : TxResult := .frames [commandFrame Config.opBurstEn Config.burstEnPayload]

/-- `SETLED mask, on` (42_tx_led_burst R132). -/
def execSetled (mask : Byte) (on : Bool) (s : State) : Host.Outcome State Fault Refusal :=
  txOutcome (encodeSetLed mask on) s

/-- `BURSTEN` (42_tx_led_burst R133). -/
def execBursten (s : State) : Host.Outcome State Fault Refusal := txOutcome encodeEnableBurstMode s

end Sys2Proof.Machine
end

