-- ==== Sys2Proof/Machine/TxServo.lean ====
section
/-! DEFINITION. The command SetServo (43_tx_servo). -/

namespace Sys2Proof.Machine

open Sys2Proof

/-- `encode(SetServo(which, position))`: the range check first, then the one frame (43_tx_servo R140, R144). -/
def encodeSetServo (which : Servo) (position : Int) : TxResult :=
  if servoInRange position then .frames [commandFrame (servoOpcode which) (servoPayload position)]
  else .error .outOfRange

/-- `SERVO w, pos`; out of range it takes the exception `OutOfRange` (43_tx_servo R140, 60_exceptions R201, R210). -/
def execServo (which : Servo) (position : Int) (s : State) : Host.Outcome State Fault Refusal :=
  txOutcome (encodeSetServo which position) s

end Sys2Proof.Machine
end

