-- ==== Sys2Proof/Machine/TxStepper.lean ====
section
/-! DEFINITION. The command TurnStepper and its split into frames (44_tx_stepper). -/

namespace Sys2Proof.Machine

open Sys2Proof

/-- `encode(TurnStepper(steps))`: one frame a count, in order (44_tx_stepper R150). -/
def encodeTurnStepper (steps : Int) : TxResult := .frames ((stepperCounts steps).map stepFrame)

/-- `STEP c`, and beyond one frame `TURN steps`, its expansion (44_tx_stepper R150 to R154, 30_encoding R80; log 6). -/
def execStepper (steps : Int) (s : State) : Host.Outcome State Fault Refusal :=
  txOutcome (encodeTurnStepper steps) s

end Sys2Proof.Machine
end

