-- ==== Sys2Proof/Machine/Encoder.lean ====
section
/-! DEFINITION. The one function of the TX block (42_tx_led_burst R130). -/

namespace Sys2Proof.Machine

open Sys2Proof

/-- `encode(Command)`: pure, reads and writes no state (42_tx_led_burst R130). -/
def encodeCommand : Command → TxResult
  | .setLed mask on => encodeSetLed mask on
  | .turnStepper steps => encodeTurnStepper steps
  | .setServo which position => encodeSetServo which position
  | .enableBurstMode => encodeEnableBurstMode

end Sys2Proof.Machine
end

