-- ==== Sys2Proof/Machine/Sender.lean ====
section
/-! DEFINITION. The reliable sender, consumer of `Ack` events and writer of frames (45_environment section 3), over its
open parameters. -/

namespace Sys2Proof.Machine

open Sys2Proof

/-- The open transport: it is opened at construction and closed when the controller stops (45_environment R172, R186, R192;
log 26). -/
def Env.openTransport (e : Env) : Option Nat := if e.ctrl = .stopped then none else some e.transportId

/-- Whether `write-bytes` succeeds: not on a closed transport, and not where the next write is to fail (45_environment R172,
R189; log 13, log 16). -/
def Env.canWrite (e : Env) : Bool := e.openTransport.isSome && !e.writeFails

/-- The end of a send: no `PendingSend` is left and the slot is empty; the handshake's success makes the controller `Ready`,
its result is kept, and a caller gets the result (45_environment R180, R182, R187, R193). -/
def Env.finish (source : SendSource) (r : CmdResult) (e : Env) : Env :=
  match source with
  | .handshake =>
    { e with
      pending := none
      ackSlot := false
      handshakeResult := some r
      ctrl := if r = .ok ∧ e.ctrl = .starting then .ready else e.ctrl }
  | .caller c => { e with pending := none, ackSlot := false, results := e.results ++ [⟨c, r⟩] }

/-- One attempt on the current frame: `write-bytes`, all four bytes in order, and the wait begins; or the
failure `TransportClosed`, which also stops the controller (45_environment R179, R194, 60_exceptions R200, R214, 20_memory R50;
log 9, log 16). -/
def attempt (P : SenderParams) (p : PendingSend) (e : Env) : Env :=
  if e.canWrite then
    { e with
      txStream := e.txStream ++ p.frame.bytes
      pending := some { p with phase := .waiting (e.now + P.ackWindow) } }
  else ({ e with writeFails := false, ctrl := .stopped }).finish p.source (.failed .transportClosed)

/-- `send(frames)`, up to its first wait (45_environment R179). -/
def startSend (P : SenderParams) (source : SendSource) (frames : List Frame) (e : Env) : Env :=
  match frames with
  | [] => e.finish source .ok
  | f :: rest => attempt P { frame := f, rest := rest, retries := 0, phase := .lapsed, source := source } e

/-- The current frame is acknowledged: write the next one, or the send has succeeded (45_environment R179). -/
def frameAcked (P : SenderParams) (p : PendingSend) (e : Env) : Env :=
  match p.rest with
  | [] => e.finish p.source .ok
  | f :: rest => attempt P { p with frame := f, rest := rest, retries := 0 } { e with ackSlot := false }

/-- The sender's turn: an acknowledged wait ends, an elapsed one is retried up to `N` times and then given up with
`NotResponding`, the later frames not attempted (45_environment R179, R181, R182; log 10). -/
def senderTurn (P : SenderParams) (e : Env) : Env :=
  match e.pending with
  | none => e
  | some p =>
    match p.phase with
    | .waiting _ => if e.ackSlot then frameAcked P p e else e
    | .lapsed =>
      if p.retries < P.maxRetries then attempt P { p with retries := p.retries + 1 } e
      else e.finish p.source (.failed .notResponding)

/-- The receive loop hands an `Ack` over: to the outstanding wait if any, whatever frame it is for; in the gap between an
elapsed window and the rewrite it is kept if `ACK_SLOT_STICKY`; else it is discarded (45_environment R183 to R185; log 10). -/
def routeAck (P : SenderParams) (e : Env) : Env :=
  match e.pending with
  | none => e
  | some p =>
    match p.phase with
    | .waiting _ => { e with ackSlot := true }
    | .lapsed => if P.ackSlotSticky then { e with ackSlot := true } else e

/-- One unit of time; a wait whose deadline is reached with no `Ack` in the slot has elapsed (45_environment R179, R180;
log 9, log 10). -/
def tick (e : Env) : Env :=
  match e.pending with
  | none => { e with now := e.now + 1 }
  | some p =>
    match p.phase with
    | .waiting deadline =>
      if deadline ≤ e.now + 1 ∧ e.ackSlot = false then
        { e with now := e.now + 1, pending := some { p with phase := .lapsed } }
      else { e with now := e.now + 1 }
    | .lapsed => { e with now := e.now + 1 }

end Sys2Proof.Machine
end

