-- ==== Sys2Proof/Machine/Store.lean ====
section
/-! DEFINITION. The sensor store, consumer of `Reading` events (45_environment section 2). -/

namespace Sys2Proof.Machine

open Sys2Proof

theorem percent_lt (raw : BitVec Config.rawW) :
    raw.toNat * Config.percentScale / Config.percentDivisor < Config.percentScale := by
  have h : raw.toNat < 1024 := raw.isLt
  change raw.toNat * 100 / 1024 < 100
  omega

/-- `(rawValue * 100) div 1024` (45_environment R174). -/
def percentOf (raw : BitVec Config.rawW) : Fin Config.percentScale :=
  ⟨raw.toNat * Config.percentScale / Config.percentDivisor, percent_lt raw⟩

/-- `rawValue == 0` (45_environment R175). -/
def flagOf (raw : BitVec Config.rawW) : Bool := raw == 0

/-- The value a reading of a channel converts to; none for a channel the store has no slot for (45_environment R174, R175,
R178). -/
def convert (r : SensorReading) : Option SensorValue :=
  match r.channel with
  | .slider => some (.percent (percentOf r.rawValue))
  | .infrared => some (.flag (flagOf r.rawValue))
  | .sound => some (.percent (percentOf r.rawValue))
  | .button => some (.flag (flagOf r.rawValue))
  | .resistiveInput _ => some (.percent (percentOf r.rawValue))
  | .unmapped _ => none

/-- The current value of a channel, the public read (45_environment R176, R193). -/
def SensorStore.read (st : SensorStore) : SensorChannel → Option SensorValue
  | .slider => some (.percent st.slider)
  | .infrared => some (.flag st.infrared)
  | .sound => some (.percent st.sound)
  | .button => some (.flag st.button)
  | .resistiveInput i =>
    match i with
    | 0 => some (.percent st.resistive0)
    | 1 => some (.percent st.resistive1)
    | 2 => some (.percent st.resistive2)
    | 3 => some (.percent st.resistive3)
  | .unmapped _ => none

/-- Replace one stored value. Each channel is independent; a value of the wrong kind, or an unmapped channel, changes nothing
(45_environment R176, R178). -/
def SensorStore.write (st : SensorStore) (ch : SensorChannel) (v : SensorValue) : SensorStore :=
  match ch, v with
  | .slider, .percent p => { st with slider := p }
  | .sound, .percent p => { st with sound := p }
  | .infrared, .flag b => { st with infrared := b }
  | .button, .flag b => { st with button := b }
  | .resistiveInput i, .percent p =>
    match i with
    | 0 => { st with resistive0 := p }
    | 1 => { st with resistive1 := p }
    | 2 => { st with resistive2 := p }
    | 3 => { st with resistive3 := p }
  | _, _ => st

/-- The receive loop re-emits a notification of the store: every subscription of its channel receives it, after those before
it (45_environment R177, R185; log 27). -/
def Env.notify (n : Notification) (e : Env) : Env :=
  { e with
    notices := e.notices ++ [n]
    subscriptions := e.subscriptions.map fun s =>
      if s.channel = n.channel then { s with received := s.received ++ [n] } else s }

/-- A caller subscribes to the notifications of one channel, from now on (45_environment R193; log 27). -/
def Env.subscribe (ch : SensorChannel) (e : Env) : Env := { e with subscriptions := e.subscriptions ++ [⟨ch, []⟩] }

/-- `applyReading`: "compare to stored value; update and notify only if different" (45_environment R173, R176, R185). -/
def applyReading (r : SensorReading) (e : Env) : Env :=
  match convert r with
  | none => e
  | some v =>
    if SensorStore.read e.store r.channel = some v then e
    else { e with store := SensorStore.write e.store r.channel v }.notify ⟨r.channel, v⟩

end Sys2Proof.Machine
end

