-- ==== Sys2Proof/Machine/Controller.lean ====
section
/-! DEFINITION. The board controller: router of events, readiness, handshake, shutdown (45_environment section 4). -/

namespace Sys2Proof.Machine

open Sys2Proof

/-- A caller of the controller gets a result. -/
def Env.report (c : Command) (r : CmdResult) (e : Env) : Env := { e with results := e.results ++ [⟨c, r⟩] }

/-- A command after the controller stopped resolves to a failure, never to success (45_environment R189, 60_exceptions R203;
log 12). -/
def Env.reportStopped (c : Command) (e : Env) : Env :=
  { e.report c (.failed (Config.stoppedError e.draws)) with draws := e.draws + 1 }

/-- A caller's command: readiness first, then the encoder's error, then the send section, which one command holds at a time
(45_environment R188, R190, 60_exceptions R208; log 15). -/
def issueCommand (P : SenderParams) (c : Command) (e : Env) : Env :=
  match e.ctrl with
  | .starting => e.report c (.failed .notReady)
  | .stopped => e.reportStopped c
  | .ready =>
    match encodeCommand c with
    | .error err => e.report c (.failed err)
    | .frames fs =>
      match e.pending with
      | none => startSend P (.caller c) fs e
      | some _ => { e with blocked := e.blocked ++ [⟨c, fs⟩] }

/-- The blocked caller number `k` enters the send section if it is free (45_environment R190; log 15). -/
def grantBlocked (P : SenderParams) (k : Nat) (e : Env) : Env :=
  match e.pending, e.blocked[k]? with
  | none, some call =>
    if e.ctrl = .stopped then ({ e with blocked := e.blocked.eraseIdx k }).reportStopped call.command
    else startSend P (.caller call.command) call.frames { e with blocked := e.blocked.eraseIdx k }
  | _, _ => e

/-- The start-up handshake `send(encode(EnableBurstMode))`, issued once, while `Starting` (45_environment R187, 70 R232;
log 14). -/
def startHandshake (P : SenderParams) (e : Env) : Env :=
  if e.ctrl = .starting ∧ e.handshakeSent = false ∧ e.pending = none then
    match encodeCommand .enableBurstMode with
    | .frames fs => startSend P .handshake fs { e with handshakeSent := true }
    | .error _ => e
  else e

/-- A failed read: the loop stops and the outstanding send resolves to failure; a stopped loop reads no more
(45_environment R189; log 13). -/
def readFailed (e : Env) : Env :=
  if e.ctrl = .stopped then e
  else
    match e.pending with
    | none => { e with ctrl := .stopped }
    | some p => ({ e with ctrl := .stopped }).finish p.source (.failed .transportClosed)

/-- The explicit shutdown: the loop stops and the transport is closed; an outstanding send is not cancelled
(45_environment R186, R192; log 13). -/
def shutDown (e : Env) : Env := { e with ctrl := .stopped }

/-- A controller is constructed with a transport identifier: the transport is opened, a fresh RX block starts in `Idle` and is
fed, the controller is `Starting` (45_environment R186, R193, 10_state R32, 70_reset_and_hazards R231, R232). Only once the one
before it has stopped and none of its callers waits; else nothing happens (log 26). -/
def construct (id : Nat) (s : State) : State :=
  if s.env.ctrl = .stopped ∧ s.env.pending = none ∧ s.env.blocked = [] then
    { rxReset s with
      env := { Env.reset with transportId := id, results := s.env.results, now := s.env.now, draws := s.env.draws } }
  else s

/-- One event of the environment. -/
def envStep (P : SenderParams) (i : EnvInput) (e : Env) : Env :=
  match i with
  | .issue c => issueCommand P c e
  | .handshake => startHandshake P e
  | .sender => senderTurn P e
  | .grant k => grantBlocked P k e
  | .tick => tick e
  | .subscribe ch => e.subscribe ch
  | .readError => readFailed e
  | .failWrite => { e with writeFails := true }
  | .shutdown => shutDown e

/-- The receive loop routes an event of the RX block: `Ack` to the sender, `Reading` to the store (45_environment R185,
60_exceptions R206). -/
def routeEvent (P : SenderParams) (e : Env) (ev : DecodedEvent) : Env :=
  match ev with
  | .ack => routeAck P e
  | .reading r => applyReading r e

/-- The receive loop after a step of the RX block: every event the step returned is routed at once, in order, and none stays
latched (10_state R28, 20_memory R52, 45_environment R185; log 2). -/
def routeEvents (P : SenderParams) (s : State) : State :=
  { s with
    env := s.emitted.foldl (routeEvent P) s.env
    delivered := s.delivered ++ s.emitted
    emitted := [] }

end Sys2Proof.Machine
end

