-- ==== Sys2Proof/Machine/RxAck.lean ====
section
/-! DEFINITION. The ack-sequence and catch-all transitions (40_rx_ack) and the whole received ack sequence. -/

namespace Sys2Proof.Machine

open Sys2Proof

/-- `Idle`, `0x55`: `rs <- FirstAckHeaderSeen` (40_rx_ack R91). -/
def execRxIdleAckH1 (s : State) : Host.Outcome State Fault Refusal :=
  rxRow (s.rs == .idle) Config.ackH1 (s.goto .firstAckHeaderSeen) s

/-- `FirstAckHeaderSeen`, `0xFF`: `rs <- SecondAckHeaderSeen` (40_rx_ack R92). -/
def execRxA1AckH2 (s : State) : Host.Outcome State Fault Refusal :=
  rxRow (s.rs == .firstAckHeaderSeen) Config.ackH2 (s.goto .secondAckHeaderSeen) s

/-- `SecondAckHeaderSeen`, `0xAA`: `rs <- Idle; emit Ack` (40_rx_ack R93). -/
def execRxA2Ack (s : State) : Host.Outcome State Fault Refusal :=
  rxRow (s.rs == .secondAckHeaderSeen) Config.ackB ((s.goto .idle).emit .ack) s

/-- `FirstAckHeaderSeen`, any byte but `0xFF`: `rs <- Idle`, the byte consumed (40_rx_ack R94, R96). -/
def execRxA1Other (b : Byte) (s : State) : Host.Outcome State Fault Refusal :=
  rxRow (s.rs == .firstAckHeaderSeen && b != Config.ackH2) b (s.goto .idle) s

/-- `SecondAckHeaderSeen`, any byte but `0xAA`: `rs <- Idle`, the byte consumed (40_rx_ack R95, R96). -/
def execRxA2Other (b : Byte) (s : State) : Host.Outcome State Fault Refusal :=
  rxRow (s.rs == .secondAckHeaderSeen && b != Config.ackB) b (s.goto .idle) s

/-- `Idle`, any byte but the two headers: `rs <- Idle` (40_rx_ack R97). -/
def execRxIdleOther (b : Byte) (s : State) : Host.Outcome State Fault Refusal :=
  rxRow (s.rs == .idle && b != Config.ackH1 && b != Config.burstH) b (s.goto .idle) s

/-- `ACKSEQ`: the three steps `RX 0x55; RX 0xFF; RX 0xAA` (30_encoding R67, R79; log 18). -/
def execAckseq (s : State) : Host.Outcome State Fault Refusal :=
  .next (feedAll [Config.ackH1, Config.ackH2, Config.ackB] s)

end Sys2Proof.Machine
end

