-- ==== Sys2Proof/Machine/RxBurst.lean ====
section
/-! DEFINITION. The burst transitions (41_rx_burst) and the whole received burst frame. -/

namespace Sys2Proof.Machine

open Sys2Proof

/-- `Idle`, `0x0C`: `rs <- BurstHeaderSeen` (41_rx_burst R110). -/
def execRxIdleBurstH (s : State) : Host.Outcome State Fault Refusal :=
  rxRow (s.rs == .idle) Config.burstH (s.goto .burstHeaderSeen) s

/-- `BurstHeaderSeen`, any byte: `buf[0] <- b; rs <- BurstFirstByteSeen` (41_rx_burst R111). -/
def execRxB0Any (b : Byte) (s : State) : Host.Outcome State Fault Refusal :=
  rxRow (s.rs == .burstHeaderSeen) b ((s.storeBuf0 b).goto .burstFirstByteSeen) s

/-- `BurstFirstByteSeen`, any byte: `buf[1] <- b; rs <- Idle; emit Reading(channel(buf[0]), raw(buf[0], buf[1]))`, the
decode using the byte just stored (41_rx_burst R112). -/
def execRxB1Any (b : Byte) (s : State) : Host.Outcome State Fault Refusal :=
  rxRow (s.rs == .burstFirstByteSeen) b ((s.storeBuf1 b).goto .idle).emitReading s

/-- `BURST b0, b1`: the three steps `RX 0x0C; RX b0; RX b1` (30_encoding R68, R79; log 18). -/
def execBurst (b0 b1 : Byte) (s : State) : Host.Outcome State Fault Refusal :=
  .next (feedAll [Config.burstH, b0, b1] s)

end Sys2Proof.Machine
end

