-- ==== Sys2Proof/Machine/Dispatch.lean ====
section
/-! DEFINITION. One arm per constructor of `Instr`. -/

namespace Sys2Proof.Machine

open Sys2Proof

def exec (i : Instr) (s : State) : Host.Outcome State Fault Refusal :=
  match i with
  | .setled mask on => Sys2Proof.Machine.execSetled mask on s
  | .bursten => Sys2Proof.Machine.execBursten s
  | .servo which position => Sys2Proof.Machine.execServo which position s
  | .stepper steps => Sys2Proof.Machine.execStepper steps s
  | .ackseq => Sys2Proof.Machine.execAckseq s
  | .burst b0 b1 => Sys2Proof.Machine.execBurst b0 b1 s
  | .rxIdleAckH1 => Sys2Proof.Machine.execRxIdleAckH1 s
  | .rxIdleBurstH => Sys2Proof.Machine.execRxIdleBurstH s
  | .rxIdleOther b => Sys2Proof.Machine.execRxIdleOther b s
  | .rxA1AckH2 => Sys2Proof.Machine.execRxA1AckH2 s
  | .rxA1Other b => Sys2Proof.Machine.execRxA1Other b s
  | .rxA2Ack => Sys2Proof.Machine.execRxA2Ack s
  | .rxA2Other b => Sys2Proof.Machine.execRxA2Other b s
  | .rxB0Any b => Sys2Proof.Machine.execRxB0Any b s
  | .rxB1Any b => Sys2Proof.Machine.execRxB1Any b s

end Sys2Proof.Machine
end

