-- ==== Sys2Proof/Machine/Loop.lean ====
section
/-! DEFINITION. What a step does around `exec`: fetching a word from the inputs, and the receive loop. -/

namespace Sys2Proof.Machine

open Sys2Proof

/-- The receive loop's part of a step: route what the step of the RX block returned (45_environment R185). -/
def deliver (o : Host.Outcome State Fault Refusal) : Host.Outcome State Fault Refusal :=
  match o with
  | .next s => .next (routeEvents Config.senderParams s)
  | .fault r => .fault r
  | .refused r => .refused r

/-- A fetched word: received words are fed by the receive loop while it runs (45_environment R186, R189; log 17), command
words run on the TX block, which nothing gates (60_exceptions R214). -/
def runWord (w : Word) (s : State) : Host.Outcome State Fault Refusal :=
  if w.received && s.env.ctrl == .stopped then .next s
  else
    match decode s.rs w with
    | .error e => .refused (.undecodable e)
    | .ok i => if w.received then deliver (exec i s) else exec i s

/-- The next input taken off the list. -/
def State.advance (rest : List Input) (s : State) : State := { s with inputs := rest }

/-- One input, already taken off the list. With no byte there is no step of the RX block (40_rx_ack R98). -/
def runInput (i : Input) (s : State) : Host.Outcome State Fault Refusal :=
  match i with
  | .word w => runWord w s
  | .apply c => exec (Instr.ofCommand c) s
  | .noByte => .next s
  | .reset => .next (rxReset s)
  | .construct id => .next (construct id s)
  | .env e => .next { s with env := envStep Config.senderParams e s.env }

/-- A machine's step: the head of the inputs; where there is none, nothing happens (40_rx_ack R98; log 3). -/
def runNext (s : State) : Host.Outcome State Fault Refusal :=
  match s.inputs with
  | [] => .next s
  | i :: rest => runInput i (s.advance rest)

/-- Place a word at the head of the inputs, with the state of the RX block that selects its row and a receive loop that runs
(log 3, log 4). -/
def placeWord (w : Word) (s : State) : State :=
  if w.received then
    { s with
      rs := match w with | .rxb b => rowStateOfByte b | _ => s.rs
      env := { s.env with ctrl := if s.env.ctrl = .stopped then .starting else s.env.ctrl }
      inputs := .word w :: s.inputs }
  else { s with inputs := .word w :: s.inputs }

end Sys2Proof.Machine
end

