-- ==== Sys2Proof/Machine/Step.lean ====
section
/-! DEFINITION. The step of the machine, and how a test places the next instruction. -/

namespace Sys2Proof.Machine

open Sys2Proof

/-- One step: the next input (log 3). -/
def step (s : State) : Host.Outcome State Fault Refusal := runNext s

/-- `s` with the instruction of the table word `w` where `step` fetches next (log 3, log 4). A width the table does not have
places nothing. -/
def State.withFetchWord (s : State) (nbits w : Nat) : State :=
  match tableWord nbits w with
  | some x => placeWord x s
  | none => s

end Sys2Proof.Machine
end

