-- ==== Sys2Proof/Machine/Flags.lean ====
section
/-! DEFINITION. The hardware has no flags (10_state R27). What stands nearest, for a reader who wants a port-level picture,
are the informative views of 10_state R23 and R35: state codes and the ports of both blocks. No rule and no step
depends on them. -/

namespace Sys2Proof.Machine

open Sys2Proof

/-- The suggested 3-bit code of a state (10_state R23, informative). -/
def stateCode : ReceiveState → BitVec 3
  | .idle => 0#3
  | .firstAckHeaderSeen => 1#3
  | .secondAckHeaderSeen => 2#3
  | .burstHeaderSeen => 3#3
  | .burstFirstByteSeen => 4#3

/-- The state of a code; 5, 6 and 7 are unrepresentable (10_state R23). -/
def stateOfCode (c : BitVec 3) : Option ReceiveState :=
  if c = 0#3 then some .idle
  else if c = 1#3 then some .firstAckHeaderSeen
  else if c = 2#3 then some .secondAckHeaderSeen
  else if c = 3#3 then some .burstHeaderSeen
  else if c = 4#3 then some .burstFirstByteSeen
  else none

/-- The suggested output ports of the RX block (10_state R35, informative). -/
structure RxPorts where
  evAck : Bool
  evReading : Bool
  rdChan : BitVec Config.chanW
  rdRaw : BitVec Config.rawW
deriving DecidableEq, Repr

/-- The output ports as combinational functions of `rs`, `buf[0]`, `rx_valid` and `rx_byte` (10_state R35). `buf[0]` shows only
with a `Reading` (R24). What `rd_chan` and `rd_raw` carry while `ev_reading = 0` no rule says: free values that depend neither on
`buf[0]` nor on `rs` (R24, R23; log 25). -/
def rxPorts (rs : ReceiveState) (buf0 : Byte) (rxValid : Bool) (rxByte : Byte) : RxPorts :=
  let evReading := rxValid && decide (rs = .burstFirstByteSeen)
  { evAck := rxValid && decide (rs = .secondAckHeaderSeen) && decide (rxByte = Config.ackB)
    evReading := evReading
    rdChan := if evReading then channelCode buf0 else Config.idleRdChan rxValid rxByte
    rdRaw := if evReading then rawValue buf0 rxByte else Config.idleRdRaw rxValid rxByte }

/-- What the ports say was emitted in a step. -/
def RxPorts.events (p : RxPorts) : List DecodedEvent :=
  (if p.evAck then [.ack] else []) ++ (if p.evReading then [.reading ⟨channelOfCode p.rdChan, p.rdRaw⟩] else [])

/-- A clock of the RX block at its input ports: a step exactly when `rx_valid`, and a reset when `rst` (10_state R34, R35). With
both at 1 R35 gives no order: the step comes first, so that the event its ports show is emitted, and the reset, which adds none,
after it, the model's choice (log 25). -/
def rxClock (rst rxValid : Bool) (b : Byte) (s : State) : State :=
  let stepped := if rxValid then feed b s else s
  if rst then rxReset stepped else stepped

/-- The port `cmd_kind` (10_state R35). -/
inductive CmdKind where
  | setLed
  | turnStepper
  | setServo
  | enableBurstMode
deriving DecidableEq, Repr

/-- The input ports of the TX block, with the default widths (10_state R35). -/
structure TxInPorts where
  cmdKind : CmdKind
  ledMask : Byte
  ledOn : Bool
  servoWhich : Bool
  servoPos : BitVec Config.posW
  steps : BitVec Config.stepsW
deriving DecidableEq, Repr

/-- The command at the input ports: the integers are signed, `servo_which` is `A = 0`, `B = 1` (10_state R35). -/
def TxInPorts.command (p : TxInPorts) : Command :=
  match p.cmdKind with
  | .setLed => .setLed p.ledMask p.ledOn
  | .turnStepper => .turnStepper p.steps.toInt
  | .setServo => .setServo (if p.servoWhich then .B else .A) p.servoPos.toInt
  | .enableBurstMode => .enableBurstMode

/-- The output ports of the TX block: the error bit, and the 32-bit frames each with its `last` mark (10_state R35). -/
structure TxOutPorts where
  errOutOfRange : Bool
  frames : List (BitVec 32 × Bool)
deriving DecidableEq, Repr

/-- Frames as 32-bit numbers, the last of them marked. -/
def markLast : List Frame → List (BitVec 32 × Bool)
  | [] => []
  | f :: fs => (f.word, fs.isEmpty) :: markLast fs

/-- The output ports that show a result of the TX block (10_state R35). -/
def txPorts : TxResult → TxOutPorts
  | .frames fs => { errOutOfRange := false, frames := markLast fs }
  | .error e => { errOutOfRange := decide (e = .outOfRange), frames := [] }

end Sys2Proof.Machine
end

