-- ==== Sys2Proof/Safety.lean ====
section
/-! DEFINITION. The terms that claims use: what a run is, the shape of what the TX block produces, the invariants of the
machine, and a send that meets only silence. -/

namespace Sys2Proof.Machine

open Sys2Proof

/-- `k` steps, stopping at the first refusal: `Host.Core.run` of the machine, over its own types. -/
def run : Nat → State → Host.Outcome State Fault Refusal
  | 0, s => .next s
  | k + 1, s =>
    match step s with
    | .next t => run k t
    | .fault r => .fault r
    | .refused r => .refused r

/-- A safe run: `k` steps go through. -/
def RunsFor (k : Nat) (s : State) : Prop := ∃ t, run k s = .next t

/-- `RX b`: one step of the RX block on a byte, through the row that `(rs, b)` selects (30_encoding R79, R81). -/
def rxByte (b : Byte) (s : State) : Host.Outcome State Fault Refusal := exec (decodeRxb s.rs b) s

/-- The bytes that an instruction of the RX block stands for (30_encoding R79, R81); none for a command. -/
def rxBytes : Instr → Option (List Byte)
  | .setled _ _ => none
  | .bursten => none
  | .servo _ _ => none
  | .stepper _ => none
  | .ackseq => some [Config.ackH1, Config.ackH2, Config.ackB]
  | .burst b0 b1 => some [Config.burstH, b0, b1]
  | .rxIdleAckH1 => some [Config.ackH1]
  | .rxIdleBurstH => some [Config.burstH]
  | .rxIdleOther b => some [b]
  | .rxA1AckH2 => some [Config.ackH2]
  | .rxA1Other b => some [b]
  | .rxA2Ack => some [Config.ackB]
  | .rxA2Other b => some [b]
  | .rxB0Any b => some [b]
  | .rxB1Any b => some [b]

/-- The six opcodes with the payloads the TX block produces (30_encoding R60, R62, R63, R76). -/
def wellShaped (f : Frame) : Prop :=
  f.b0 = 0x54#8 ∧ f.b1 = 0xFE#8 ∧
    (f.b2 = 0xA0#8 ∧ f.b3 = 0xFF#8 ∨
     f.b2 = 0xC0#8 ∨ f.b2 = 0xC1#8 ∨
     (f.b2 = 0xD0#8 ∨ f.b2 = 0xD1#8) ∧
        (∃ p : Int, -90 ≤ p ∧ p ≤ 90 ∧ f.b3 = servoPayload p) ∨
     f.b2 = 0xF0#8 ∧ f.b3 ≠ 0x80#8)

/-- A result the TX block may return: a non-empty list of frames of its shape, or `OutOfRange` (42_tx_led_burst R130,
60_exceptions R201). -/
def TxResultOk (r : TxResult) : Prop :=
  match r with
  | .frames fs => fs ≠ [] ∧ ∀ f ∈ fs, wellShaped f
  | .error e => e = .outOfRange

/-- A stream made of whole frames of the TX block's shape, laid end to end (20_memory R47, R50). -/
def WholeFrames (bytes : List Byte) : Prop :=
  ∃ fs : List Frame, (∀ f ∈ fs, wellShaped f) ∧ bytes = fs.flatMap Frame.bytes

/-- A channel that the RX block can report: `Unmapped` carries a code from 8 on (41_rx_burst R117). -/
def ChannelOk : SensorChannel → Prop
  | .unmapped c => 8 ≤ c.toNat
  | _ => True

/-- What holds of an outstanding send. -/
structure PendingOk (P : SenderParams) (e : Env) (p : PendingSend) : Prop where
  frame : wellShaped p.frame
  rest : ∀ f ∈ p.rest, wellShaped f
  retries : p.retries ≤ P.maxRetries
  inTime : ∀ d, p.phase = .waiting d → e.ackSlot = false → e.now ≤ d
  whileStarting : e.ctrl = .starting → p.source = .handshake
  handshake : p.source = .handshake → e.handshakeSent = true

/-- The invariant of the environment. A subscription has received the latest notifications of its channel, in their order
(45_environment R177). -/
structure EnvOk (P : SenderParams) (e : Env) : Prop where
  stream : WholeFrames e.txStream
  pending : ∀ p, e.pending = some p → PendingOk P e p
  slot : e.pending = none → e.ackSlot = false
  blocked : ∀ c ∈ e.blocked, c.frames ≠ [] ∧ ∀ f ∈ c.frames, wellShaped f
  noneBlocked : e.ctrl = .starting → e.blocked = []
  ready : e.ctrl = .ready → e.handshakeSent = true
  notices : ∀ n ∈ e.notices, ∀ c, n.channel ≠ .unmapped c
  subscriptions : ∀ s ∈ e.subscriptions, s.received <:+ e.notices.filter (fun n => n.channel = s.channel)

/-- The invariant of the machine: no event stays latched, the TX block returned only results of its shape, every delivered
reading names a channel the RX block can report, and the environment's invariant. -/
structure Inv (s : State) : Prop where
  emitted : s.emitted = []
  returned : ∀ r ∈ s.returned, TxResultOk r
  delivered : ∀ r, DecodedEvent.reading r ∈ s.delivered → ChannelOk r.channel
  env : EnvOk Config.senderParams s.env

/-- `k` units of time. -/
def ticks : Nat → Env → Env
  | 0, e => e
  | k + 1, e => ticks k (tick e)

/-- One wait of the sender that meets only silence: its window passes and the sender acts. A window of 0 takes the one tick
at which its end is seen (log 9). -/
def silentRound (P : SenderParams) (e : Env) : Env := senderTurn P (ticks (max 1 P.ackWindow) e)

/-- `k` such waits. -/
def silentRounds (P : SenderParams) : Nat → Env → Env
  | 0, e => e
  | k + 1, e => silentRounds P k (silentRound P e)

/-- The bytes of burst frames laid end to end (70_reset_and_hazards R237). -/
def burstStream (frames : List (Byte × Byte)) : List Byte :=
  frames.flatMap (fun p => [Config.burstH, p.1, p.2])

end Sys2Proof.Machine
end

