-- ==== Sys2Proof/Certificates/Slice0/Obligations.lean ====
section
/-! DEFINITION. The statements for the provers. Each docstring names the rule of spec/ it formalises. -/

open Sys2Proof Sys2Proof.Machine

/-! ### The RX block: one statement per row (completion, new values and frame by equality of states) -/

/-- 40_rx_ack R91: the row's effect in `Idle`, and in every other state `0x55` is no header: a mismatch in the two ack
states, payload in the two burst states. -/
def Obligations.FirstAckHeader : Prop :=
  ∀ s : State,
    (s.rs = .idle → exec .rxIdleAckH1 s = .next { s with rs := .firstAckHeaderSeen } ∧ rxByte 0x55#8 s = exec .rxIdleAckH1 s) ∧
    (s.rs = .firstAckHeaderSeen ∨ s.rs = .secondAckHeaderSeen → rxByte 0x55#8 s = .next { s with rs := .idle }) ∧
    (s.rs = .burstHeaderSeen → rxByte 0x55#8 s = .next { s with rs := .burstFirstByteSeen, buf0 := 0x55#8 }) ∧
    (s.rs = .burstFirstByteSeen → rxByte 0x55#8 s =
      .next { s with rs := .idle, buf1 := 0x55#8, emitted := s.emitted ++ [.reading (readingOf s.buf0 0x55#8)] })

/-- 40_rx_ack R92: the row's effect; `0xFF` is ignored in `Idle`; only this pair reaches `SecondAckHeaderSeen`: its second byte
only this way, its first only by `0x55` in `Idle`. -/
def Obligations.SecondAckHeader : Prop :=
  ∀ s : State,
    (s.rs = .firstAckHeaderSeen →
      exec .rxA1AckH2 s = .next { s with rs := .secondAckHeaderSeen } ∧ rxByte 0xFF#8 s = exec .rxA1AckH2 s) ∧
    (s.rs = .idle → rxByte 0xFF#8 s = .next s) ∧
    (∀ b t, rxByte b s = .next t → t.rs = .secondAckHeaderSeen → s.rs = .firstAckHeaderSeen ∧ b = 0xFF#8) ∧
    (∀ b t, rxByte b s = .next t → t.rs = .firstAckHeaderSeen → s.rs = .idle ∧ b = 0x55#8)

/-- 40_rx_ack R94: every byte other than `0xFF` in `FirstAckHeaderSeen` is consumed, `rs <- Idle`, nothing else. -/
def Obligations.MismatchAfterFirstHeader : Prop :=
  ∀ (s : State) (b : Byte), s.rs = .firstAckHeaderSeen → b ≠ 0xFF#8 →
    exec (.rxA1Other b) s = .next { s with rs := .idle } ∧ rxByte b s = exec (.rxA1Other b) s

/-- 40_rx_ack R95: every byte other than `0xAA` in `SecondAckHeaderSeen` is consumed, `rs <- Idle`, nothing else. -/
def Obligations.MismatchAfterSecondHeader : Prop :=
  ∀ (s : State) (b : Byte), s.rs = .secondAckHeaderSeen → b ≠ 0xAA#8 →
    exec (.rxA2Other b) s = .next { s with rs := .idle } ∧ rxByte b s = exec (.rxA2Other b) s

/-- 40_rx_ack R97: every byte but the two headers is ignored in `Idle`. -/
def Obligations.NoiseIgnoredInIdle : Prop :=
  ∀ (s : State) (b : Byte), s.rs = .idle → b ≠ 0x55#8 → b ≠ 0x0C#8 →
    exec (.rxIdleOther b) s = .next s ∧ rxByte b s = exec (.rxIdleOther b) s

/-- 41_rx_burst R110: the burst header is a header only in `Idle`: a mismatch in the ack states, payload in the burst
states. -/
def Obligations.BurstHeader : Prop :=
  ∀ s : State,
    (s.rs = .idle → exec .rxIdleBurstH s = .next { s with rs := .burstHeaderSeen } ∧ rxByte 0x0C#8 s = exec .rxIdleBurstH s) ∧
    (s.rs = .firstAckHeaderSeen ∨ s.rs = .secondAckHeaderSeen → rxByte 0x0C#8 s = .next { s with rs := .idle }) ∧
    (s.rs = .burstHeaderSeen → rxByte 0x0C#8 s = .next { s with rs := .burstFirstByteSeen, buf0 := 0x0C#8 }) ∧
    (s.rs = .burstFirstByteSeen → rxByte 0x0C#8 s =
      .next { s with rs := .idle, buf1 := 0x0C#8, emitted := s.emitted ++ [.reading (readingOf s.buf0 0x0C#8)] })

/-- 41_rx_burst R111: any byte in `BurstHeaderSeen` is stored in `buf[0]`, whatever its channel nibble. -/
def Obligations.FirstPayloadByteStored : Prop :=
  ∀ (s : State) (b : Byte), s.rs = .burstHeaderSeen →
    exec (.rxB0Any b) s = .next { s with rs := .burstFirstByteSeen, buf0 := b } ∧ rxByte b s = exec (.rxB0Any b) s

/-- 10_state R36, with the listing of 40_rx_ack R90: the rows and the listing are the same machine. Every instruction of the RX
block, in every state, completes and is the feeding of its bytes; a step of the RX block answers a next state for every state
and byte, returns at most one event, and touches nothing but `rs`, the buffer and that event. That a row off its own state feeds
its byte is the model's choice (log 5); that a 3-byte word is its three bytes is its inference (log 18). -/
def Obligations.RowsRefineTheListing : Prop :=
  (∀ (i : Instr) (bs : List Byte) (s : State), rxBytes i = some bs → exec i s = .next (feedAll bs s)) ∧
  (∀ (b : Byte) (s : State), rxByte b s = .next (feed b s) ∧
    ((feed b s).emitted = s.emitted ∨ ∃ e, (feed b s).emitted = s.emitted ++ [e]) ∧
    feed b s = { s with
      rs := (feed b s).rs, buf0 := (feed b s).buf0, buf1 := (feed b s).buf1, emitted := (feed b s).emitted })

/-- 40_rx_ack R96: a mismatching byte resets to `Idle` and is not examined again; the rule's three consequences. -/
def Obligations.MismatchNotReexamined : Prop :=
  (∀ (s : State) (b : Byte), s.rs = .firstAckHeaderSeen ∧ b ≠ 0xFF#8 ∨ s.rs = .secondAckHeaderSeen ∧ b ≠ 0xAA#8 →
    feed b s = { s with rs := .idle }) ∧
  ∀ s : State, s.rs = .idle →
    feedAll [0x55#8, 0x55#8, 0xFF#8, 0xAA#8] s = s ∧
    (∀ x y : Byte, feedAll [0x55#8, 0x0C#8, x, y] s = feedAll [x, y] s ∧
      (feedAll [0x55#8, 0x0C#8, x, y] s).emitted = s.emitted) ∧
    feedAll [0x55#8, 0xFF#8, 0x55#8, 0xFF#8, 0xAA#8] s = s

/-- 40_rx_ack R99: a byte inserted between two bytes of the ack sequence loses it; the three cases of a byte before it. -/
def Obligations.InsertedByteInAckSequence : Prop :=
  ∀ (s : State) (x : Byte), s.rs = .idle →
    (x ≠ 0xFF#8 → feedAll [0x55#8, x, 0xFF#8, 0xAA#8] s = s) ∧
    (x ≠ 0xAA#8 → feedAll [0x55#8, 0xFF#8, x, 0xAA#8] s = s) ∧
    (x ≠ 0x55#8 → x ≠ 0x0C#8 → feedAll [x, 0x55#8, 0xFF#8, 0xAA#8] s = { s with emitted := s.emitted ++ [.ack] }) ∧
    (x = 0x55#8 → feedAll [x, 0x55#8, 0xFF#8, 0xAA#8] s = s) ∧
    (x = 0x0C#8 → feedAll [x, 0x55#8, 0xFF#8, 0xAA#8] s =
      { s with buf0 := 0x55#8, buf1 := 0xFF#8, emitted := s.emitted ++ [.reading ⟨.resistiveInput 1, 511#10⟩] })

/-- 40_rx_ack R93: the row `rs <- Idle; emit Ack`, `buf` unchanged; no other step of the RX block emits an `Ack`; and over every
byte sequence fed from `Idle` the last byte emits an `Ack` exactly when the three most recent bytes are `0x55, 0xFF, 0xAA` and
the first of them was fed in `Idle`. -/
def Obligations.AckExactlyOnAckSequence : Prop :=
  (∀ s : State, s.rs = .secondAckHeaderSeen →
    exec .rxA2Ack s = .next { s with rs := .idle, emitted := s.emitted ++ [.ack] } ∧ rxByte 0xAA#8 s = exec .rxA2Ack s) ∧
  (∀ (s : State) (b : Byte) (t : State), rxByte b s = .next t → t.emitted = s.emitted ++ [.ack] →
    s.rs = .secondAckHeaderSeen ∧ b = 0xAA#8) ∧
  ∀ (s : State) (bs : List Byte) (b : Byte), s.rs = .idle →
    ((feedAll (bs ++ [b]) s).emitted = (feedAll bs s).emitted ++ [.ack] ↔
      ∃ before, bs = before ++ [0x55#8, 0xFF#8] ∧ b = 0xAA#8 ∧ (feedAll before s).rs = .idle)

/-- 41_rx_burst R112: in `BurstFirstByteSeen` any byte is stored in `buf[1]`, and the reading of the two payload bytes, the
stored one among them, is emitted; no other step emits a `Reading`; and over every byte sequence fed from `Idle` the last byte
emits a `Reading` exactly when the three most recent bytes are `0x0C, b0, b1` and the `0x0C` was fed in `Idle`. -/
def Obligations.ReadingExactlyOnBurstFrame : Prop :=
  (∀ (s : State) (b : Byte), s.rs = .burstFirstByteSeen →
    exec (.rxB1Any b) s =
      .next { s with rs := .idle, buf1 := b, emitted := s.emitted ++ [.reading ⟨channelOf s.buf0, rawValue s.buf0 b⟩] } ∧
    rxByte b s = exec (.rxB1Any b) s) ∧
  (∀ (s : State) (b : Byte) (t : State) (r : SensorReading), rxByte b s = .next t →
    t.emitted = s.emitted ++ [.reading r] → s.rs = .burstFirstByteSeen) ∧
  ∀ (s : State) (bs : List Byte) (b1 : Byte) (r : SensorReading), s.rs = .idle →
    ((feedAll (bs ++ [b1]) s).emitted = (feedAll bs s).emitted ++ [.reading r] ↔
      ∃ before b0, bs = before ++ [0x0C#8, b0] ∧ (feedAll before s).rs = .idle ∧ r = readingOf b0 b1)

/-- 40_rx_ack R93, 30_encoding R67, S1 of 95_test_vectors: from `Idle` the ack sequence emits exactly one `Ack`, ends in
`Idle` and changes nothing else. -/
def Obligations.AckSequenceFromIdle : Prop :=
  ∀ s : State, s.rs = .idle → exec .ackseq s = .next { s with emitted := s.emitted ++ [.ack] }

/-- 41_rx_burst R121 with R114, R116, R117: from `Idle` a burst frame emits exactly one `Reading`, its channel the high
nibble of `b0`, its value `(b0 mod 4) * 256 + b1`; nothing is emitted on its first two bytes. -/
def Obligations.BurstFrameFromIdle : Prop :=
  ∀ (s : State) (b0 b1 : Byte), s.rs = .idle →
    (∃ r : SensorReading,
      r.rawValue.toNat = b0.toNat % 4 * 256 + b1.toNat ∧ r.channel = channelOfCode (BitVec.ofNat 4 (b0.toNat / 16)) ∧
      exec (.burst b0 b1) s =
        .next { s with buf0 := b0, buf1 := b1, emitted := s.emitted ++ [.reading r] }) ∧
    (feedAll [0x0C#8] s).emitted = s.emitted ∧ (feedAll [0x0C#8, b0] s).emitted = s.emitted

/-- 41_rx_burst R114: the raw value of two payload bytes; all of 0..1023 is reached, and `(b0[1:0], b1)` is recovered. -/
def Obligations.RawValueOfPayload : Prop :=
  (∀ b0 b1 : Byte, (rawValue b0 b1).toNat = b0.toNat % 4 * 256 + b1.toNat) ∧
  (∀ r : BitVec 10, ∃ b0 b1 : Byte, rawValue b0 b1 = r) ∧
  (∀ b0 b1 c0 c1 : Byte, rawValue b0 b1 = rawValue c0 c1 → b0.toNat % 4 = c0.toNat % 4 ∧ b1 = c1)

/-- 30_encoding R69, 41_rx_burst R116, and for codes 8 to 15 the spec's decision D5 (R73, R117): the channel of a first
payload byte. -/
def Obligations.ChannelOfPayload : Prop :=
  ∀ b0 : Byte,
    (b0.toNat / 16 = 0 → channelOf b0 = .slider) ∧ (b0.toNat / 16 = 1 → channelOf b0 = .infrared) ∧
    (b0.toNat / 16 = 2 → channelOf b0 = .sound) ∧ (b0.toNat / 16 = 3 → channelOf b0 = .button) ∧
    (∀ i : Fin 4, b0.toNat / 16 = i.val + 4 → channelOf b0 = .resistiveInput i) ∧
    (8 ≤ b0.toNat / 16 → channelOf b0 = .unmapped (BitVec.ofNat 4 (b0.toNat / 16)))

/-- 41_rx_burst R115, 30_encoding R74: bits 3:2 of `b0` enter neither part of a reading, bits 1:0 not the channel, bits 7:4
not the value. -/
def Obligations.IgnoredPayloadBits : Prop :=
  ∀ b0 c0 b1 : Byte,
    (b0 ^^^ c0 = 0x04#8 ∨ b0 ^^^ c0 = 0x08#8 ∨ b0 ^^^ c0 = 0x0C#8 → readingOf b0 b1 = readingOf c0 b1) ∧
    (b0.toNat / 16 = c0.toNat / 16 → channelOf b0 = channelOf c0) ∧
    (b0.toNat % 4 = c0.toNat % 4 → rawValue b0 b1 = rawValue c0 b1)

/-- 41_rx_burst R119, 10_state R26: outside `BurstFirstByteSeen`, in `Idle` above all, what the RX block does with a byte
sequence, its events and its next states, does not depend on what the buffer held before; a burst frame fed twice emits two
equal readings. -/
def Obligations.OldBufferNeverObserved : Prop :=
  (∀ (bs : List Byte) (s t : State), s.rs = t.rs → s.rs ≠ .burstFirstByteSeen →
    (feedAll bs s).rs = (feedAll bs t).rs ∧
    ∃ events, (feedAll bs s).emitted = s.emitted ++ events ∧ (feedAll bs t).emitted = t.emitted ++ events) ∧
  ∀ (s : State) (b0 b1 : Byte), s.rs = .idle →
    ∃ r, (feedAll [0x0C#8, b0, b1, 0x0C#8, b0, b1] s).emitted = s.emitted ++ [.reading r, .reading r]

/-- 70_reset_and_hazards R237, as far as the transition rules support it (log 19): burst frames laid end to end, joined at any
alignment, never emit an `Ack` when the RX block starts before any ack header; when it starts inside an ack sequence an `Ack`
can come only within the first two bytes of the stream, and none at all when the stream is joined at a frame boundary. -/
def Obligations.NoAckFromBurstFramesAlone : Prop :=
  ∀ (frames : List (Byte × Byte)) (k : Nat) (s : State), DecodedEvent.ack ∉ s.emitted →
    (s.rs ≠ .firstAckHeaderSeen → s.rs ≠ .secondAckHeaderSeen →
      DecodedEvent.ack ∉ (feedAll ((burstStream frames).drop k) s).emitted) ∧
    (∃ later, DecodedEvent.ack ∉ later ∧
      (feedAll ((burstStream frames).drop k) s).emitted =
        (feedAll (((burstStream frames).drop k).take 2) s).emitted ++ later) ∧
    (k % 3 = 0 → DecodedEvent.ack ∉ (feedAll ((burstStream frames).drop k) s).emitted)

/-! ### The TX block -/

/-- 42_tx_led_burst R132: the one frame of `SetLed`; nothing but the returned result changes. -/
def Obligations.SetLedFrame : Prop :=
  ∀ (mask : Byte) (on : Bool) (s : State),
    exec (.setled mask on) s =
      .next { s with returned := s.returned ++ [.frames [⟨0x54#8, 0xFE#8, if on then 0xC1#8 else 0xC0#8, mask⟩]] }

/-- 42_tx_led_burst R133: the one frame of `EnableBurstMode`, the word `0x54FEA0FF`. -/
def Obligations.EnableBurstModeFrame : Prop :=
  ∀ s : State,
    exec .bursten s = .next { s with returned := s.returned ++ [.frames [⟨0x54#8, 0xFE#8, 0xA0#8, 0xFF#8⟩]] } ∧
    encode .bursten = .tx4 0x54FEA0FF#32

/-- 43_tx_servo R140 to R143, with the spec's decisions D6, D7 and D8: for a position in range the one frame of `SetServo`
carries `q - 127` as a byte, where `q` is `x = (position + 90) * 255 / 180 = 17 (position + 90) / 12` rounded to the nearest
integer, a tie down: `x - 1/2 ≤ q < x + 1/2`, here times 24. -/
def Obligations.SetServoFrame : Prop :=
  ∀ (which : Servo) (position : Int) (s : State), -90 ≤ position → position ≤ 90 →
    ∃ q : Int, 34 * (position + 90) - 12 ≤ 24 * q ∧ 24 * q < 34 * (position + 90) + 12 ∧ 0 ≤ q ∧ q ≤ 255 ∧
      exec (.servo which position) s =
        .next { s with
          returned := s.returned ++
            [.frames [⟨0x54#8, 0xFE#8, if which = .A then 0xD0#8 else 0xD1#8, BitVec.ofInt 8 (q - 127)⟩]] }

/-- 43_tx_servo R144: a position outside the inclusive range −90..90 returns `OutOfRange`, with no frame and with nothing else
changed, for both servos; a position inside it, the bounds included, returns its one frame. -/
def Obligations.SetServoOutOfRange : Prop :=
  ∀ (which : Servo) (position : Int) (s : State),
    (position < -90 ∨ 90 < position →
      exec (.servo which position) s = .next { s with returned := s.returned ++ [.error .outOfRange] }) ∧
    (-90 ≤ position → position ≤ 90 →
      ∃ f, exec (.servo which position) s = .next { s with returned := s.returned ++ [.frames [f]] })

/-- 60_exceptions R201: `OutOfRange` is the result exactly for `SetServo` outside the range, and no other error is a result of
`encode`. -/
def Obligations.OutOfRangeExactly : Prop :=
  ∀ (c : Command) (e : ErrorKind),
    encodeCommand c = .error e ↔
      e = .outOfRange ∧ ∃ which position, c = .setServo which position ∧ (position < -90 ∨ 90 < position)

/-- 43_tx_servo R146 (decisions D7, D8): the 181 positions have strictly increasing `pos'`, all payloads differ, and a payload
byte has a position exactly when one of the 181 gives it. -/
def Obligations.ServoPayloadsDistinct : Prop :=
  (∀ p q : Int, -90 ≤ p → p < q → q ≤ 90 → servoPos p < servoPos q ∧ servoPayload p ≠ servoPayload q) ∧
  (∀ (b : Byte) (p : Int), positionOfPayload b = some p ↔ -90 ≤ p ∧ p ≤ 90 ∧ servoPayload p = b)

/-- 44_tx_stepper R150, R153, R154, R157 (decisions D9, D10): `TurnStepper` returns stepper frames whose counts sum to `steps`,
lie in −127..127, have its sign, and are full but for the last; their number is `max(1, ceil(|steps| / 127))`. -/
def Obligations.TurnStepperFrames : Prop :=
  ∀ (steps : Int) (s : State),
    ∃ counts : List Int,
      exec (.stepper steps) s =
        .next { s with
          returned := s.returned ++ [.frames (counts.map fun c => ⟨0x54#8, 0xFE#8, 0xF0#8, BitVec.ofInt 8 c⟩)] } ∧
      counts.sum = steps ∧
      (∀ c ∈ counts, -127 ≤ c ∧ c ≤ 127 ∧ (0 ≤ steps → 0 ≤ c) ∧ (steps ≤ 0 → c ≤ 0) ∧ (c = 0 → steps = 0)) ∧
      (∀ c ∈ counts.dropLast, c.natAbs = 127) ∧
      counts.length = max 1 ((steps.natAbs + 126) / 127)

/-- 44_tx_stepper R156: the sequential formulation with the private register `rem` gives the same counts, and marks the last
frame and no other. -/
def Obligations.SequentialSplitAgrees : Prop :=
  ∀ steps : Int,
    (stepperSequential steps).map Prod.fst = stepperCounts steps ∧
    (stepperSequential steps).map Prod.snd = List.replicate ((stepperCounts steps).length - 1) false ++ [true]

/-- 42_tx_led_burst R130: in every state a command of the TX block completes, returns what `encode` gives, a function of the
command alone, and changes nothing else; the result is a non-empty list of frames that begin `0x54, 0xFE`, or `OutOfRange`,
which only `SetServo` gives. -/
def Obligations.CommandsReturnTheirEncoding : Prop :=
  ∀ c : Command,
    (∀ s : State, exec (Instr.ofCommand c) s = .next { s with returned := s.returned ++ [encodeCommand c] }) ∧
    ((∃ which position, c = .setServo which position) ∧ encodeCommand c = .error .outOfRange ∨
      ∃ fs, encodeCommand c = .frames fs ∧ fs ≠ [] ∧ ∀ f ∈ fs, f.b0 = 0x54#8 ∧ f.b1 = 0xFE#8)

/-- 30_encoding R60, R62, R63, R76: every frame of every result has the prefix, one of the six opcodes, and a payload of the
range the TX block produces. -/
def Obligations.EveryFrameWellShaped : Prop :=
  ∀ (c : Command) (fs : List Frame) (f : Frame), encodeCommand c = .frames fs → f ∈ fs → wellShaped f

/-- 60_exceptions R209: a step of the RX block and an application of `encode` commute. -/
def Obligations.RxAndTxCommute : Prop :=
  ∀ (i j : Instr) (bs : List Byte) (c : Command) (s : State),
    rxBytes i = some bs → j = Instr.ofCommand c →
      ∃ s1 s2 t, exec i s = .next s1 ∧ exec j s1 = .next t ∧ exec j s = .next s2 ∧ exec i s2 = .next t

/-! ### Encodings -/

/-- 30_encoding R60 to R81: decoding the word of a well-formed instruction gives it back, in the state its row belongs to (in
any state, for a row that belongs to none). -/
def Obligations.DecodeOfEncode : Prop :=
  ∀ (i : Instr) (rs : ReceiveState), i.wf = true → (∀ r, i.rowState = some r → rs = r) → decode rs (encode i) = .ok i

/-- 30_encoding R72, R75, R81: a word that decodes has one meaning: the instruction is well formed, stands in a row of the
state, and its word is the one decoded. -/
def Obligations.EncodeOfDecode : Prop :=
  ∀ (rs : ReceiveState) (w : Word) (i : Instr), decode rs w = .ok i →
    i.wf = true ∧ encode i = w ∧ (∀ r, i.rowState = some r → r = rs)

/-- Words written out from the encodings of 30_encoding R60 to R68 and the rows of R81. -/
def Obligations.WordsFromTheSpec : Prop :=
  decode .idle (.tx4 0x54FEC1FF#32) = .ok (.setled 0xFF#8 true) ∧
  decode .idle (.tx4 0x54FEA0FF#32) = .ok .bursten ∧
  decode .idle (.tx4 0x54FED080#32) = .ok (.servo .A 90) ∧
  decode .idle (.tx4 0x54FED181#32) = .ok (.servo .B (-90)) ∧
  decode .idle (.tx4 0x54FEF0D2#32) = .ok (.stepper (-46)) ∧
  decode .idle (.rx3 0x55FFAA#24) = .ok .ackseq ∧
  decode .idle (.rx3 0x0C0512#24) = .ok (.burst 0x05#8 0x12#8) ∧
  decode .idle (.rxb 0x55#8) = .ok .rxIdleAckH1 ∧
  decode .firstAckHeaderSeen (.rxb 0x55#8) = .ok (.rxA1Other 0x55#8)

/-- 30_encoding R75 (decision D18): the parser accepts a frame exactly when it is well formed. -/
def Obligations.ParserAcceptsWellFormedFrames : Prop :=
  ∀ f : Frame,
    (∃ p, parseFrame f = .ok p) ↔
      f.b0 = 0x54#8 ∧ f.b1 = 0xFE#8 ∧
        (f.b2 = 0xA0#8 ∧ f.b3 = 0xFF#8 ∨ f.b2 ∈ [0xC0#8, 0xC1#8, 0xD0#8, 0xD1#8, 0xF0#8])

/-- 30_encoding R76 says which frames the TX block never produces. The model's choice (log 7): a command word has an instruction
exactly when the TX block can produce its frame, so that the others are refused. -/
def Obligations.DecodedFramesAreTheProducedOnes : Prop :=
  ∀ (rs : ReceiveState) (w : BitVec 32),
    (∃ i, decode rs (.tx4 w) = .ok i) ↔ wellShaped (Frame.ofWord w)

/-! ### The step -/

/-- The model's choice (log 3, log 17): a word at the head of the inputs that decodes to an instruction is run by `exec` on the
state without it; for received words the receive loop routes the events after it, and reads nothing once stopped. A command
applied is run by `exec` as well, an event of the environment is one `envStep` of it alone, and with no byte or no input at all
there is nothing to run (log 8). -/
def Obligations.StepRunsTheDecodedWord : Prop :=
  (∀ (s : State) (w : Word) (rest : List Input) (i : Instr), s.inputs = .word w :: rest → decode s.rs w = .ok i →
    (w.received = false → step s = exec i { s with inputs := rest }) ∧
    (w.received = true → s.env.ctrl ≠ .stopped →
      ∃ t, exec i { s with inputs := rest } = .next t ∧ step s = .next (routeEvents Config.senderParams t)) ∧
    (w.received = true → s.env.ctrl = .stopped → step s = .next { s with inputs := rest })) ∧
  ∀ (s : State) (rest : List Input),
    (∀ c, s.inputs = .apply c :: rest → step s = exec (Instr.ofCommand c) { s with inputs := rest }) ∧
    (∀ e, s.inputs = .env e :: rest →
      step s = .next { s with env := envStep Config.senderParams e s.env, inputs := rest }) ∧
    (s.inputs = .noByte :: rest → step s = .next { s with inputs := rest }) ∧
    (s.inputs = [] → step s = .next s)

/-- The model's choice (log 3, log 4): from every state, a table word placed with `withFetchWord` is what the next step runs: a
command word by `exec` on the state itself, a received word by `exec` on the state with the RX block where the row of the word
stands and a receive loop that runs, its events then routed. -/
def Obligations.PlacedWordRunsNext : Prop :=
  ∀ (s : State) (nbits w : Nat) (x : Word) (i : Instr),
    tableWord nbits w = some x → decode (tableState x) x = .ok i →
      decodeTableWord nbits w = some i ∧
      (x.received = false → step (s.withFetchWord nbits w) = exec i s) ∧
      (x.received = true →
        (∃ t, exec i ((placeWord x s).advance s.inputs) = .next t ∧
          step (s.withFetchWord nbits w) = .next (routeEvents Config.senderParams t)) ∧
        (placeWord x s).advance s.inputs =
          { s with
            rs := match x with | .rxb b => rowStateOfByte b | _ => s.rs
            env := { s.env with ctrl := if s.env.ctrl = .stopped then .starting else s.env.ctrl } })

/-- 30_encoding R79, R80 (log 18): a received 3-byte word in one step is its three bytes in three steps, routing included. -/
def Obligations.SequenceIsThreeBytes : Prop :=
  ∀ (s : State) (h b0 b1 : Byte) (rest : List Input) (i : Instr),
    decodeRx3 (h ++ b0 ++ b1) = .ok i → s.env.ctrl ≠ .stopped →
      step { s with inputs := .word (.rx3 (h ++ b0 ++ b1)) :: rest } =
        run 3
          { s with inputs := .word (.rxb h) :: .word (.rxb b0) :: .word (.rxb b1) :: rest }

/-- 40_rx_ack R98, 20_memory R49: with no byte there is no step, and a silence of any length inside a frame, time passing
included, leaves the RX block, its events and its frame as they were. -/
def Obligations.SilenceKeepsTheFrame : Prop :=
  ∀ (silence : List Input) (rest : List Input) (s : State),
    (∀ i ∈ silence, i = .noByte ∨ i = .env .tick) → s.inputs = silence ++ rest →
      ∃ t, run silence.length s = .next t ∧ t.inputs = rest ∧
        t.rs = s.rs ∧ t.buf0 = s.buf0 ∧ t.buf1 = s.buf1 ∧ t.emitted = s.emitted ∧ t.delivered = s.delivered ∧
        (silence.all (· == .noByte) = true → t.env = s.env)

/-- 10_state R36 and log 7: a step stops only on a word the decoder refuses, never on a received byte, and then by name. -/
def Obligations.OnlyUndecodableWordsStop : Prop :=
  ∀ s : State,
    (∃ t, step s = .next t) ∨
    (∃ w rest e, s.inputs = .word w :: rest ∧ (∀ b, w ≠ .rxb b) ∧ decode s.rs w = .error e ∧
      step s = .refused (.undecodable e))

/-- 00_scope R6, 10_state R21, 70_reset_and_hazards R244: only received words, a reset of the RX block and the construction of a
new one (10_state R32; log 26) move `rs` or the buffer or deliver events; commands, retries, timeouts, silence and every event
of the environment do not. -/
def Obligations.OnlyReceivedBytesMoveTheRxBlock : Prop :=
  ∀ s t : State, step s = .next t →
    (∀ w rest, s.inputs = .word w :: rest → w.received = false) → (∀ rest, s.inputs ≠ .reset :: rest) →
      (∀ id rest, s.inputs ≠ .construct id :: rest) →
        t.rs = s.rs ∧ t.buf0 = s.buf0 ∧ t.buf1 = s.buf1 ∧ t.emitted = s.emitted ∧ t.delivered = s.delivered

/-- 20_memory R48, R55 (decision D21): nothing the machine writes comes back as input. The model's choice (log 3, log 17): a step
takes exactly the head of the inputs, commands and events of the environment included, and also a received word that a stopped
receive loop does not feed. -/
def Obligations.NoLoopBack : Prop := ∀ s t : State, step s = .next t → t.inputs = s.inputs.tail

/-- 60_exceptions R207, 10_state R28, 45_environment R185: a step delivers at most one event, and it is routed in that step, an
`Ack` to the sender and a `Reading` to the store. -/
def Obligations.AtMostOneEventPerStep : Prop :=
  ∀ s t : State, s.emitted = [] → step s = .next t → t.emitted = [] ∧
    (t.delivered = s.delivered ∨
      (t.delivered = s.delivered ++ [.ack] ∧ t.env = routeAck Config.senderParams s.env) ∨
      ∃ r, t.delivered = s.delivered ++ [.reading r] ∧ t.env = applyReading r s.env)

/-- 70_reset_and_hazards R231: the environment's initial condition. -/
def Obligations.EnvironmentAtReset : Prop :=
  State.reset.env.ctrl = .starting ∧ State.reset.env.pending = none ∧ State.reset.env.ackSlot = false ∧
    State.reset.env.store = Config.storeInit

/-- 10_state R32 to R34, 70_reset_and_hazards R230 (the spec's decision D4): the state after reset is `Idle` with no event; a
reset at any time sets `rs <- Idle`, discards the partial frame and emits nothing. Of the buffer nothing is said. The model's
choices: that a reset leaves the environment as it was (log 20), and what a construction does (log 26): once the controller
before it has stopped, with no send outstanding and no caller waiting, `rs <- Idle` and the environment's initial condition of
70_reset_and_hazards R231, with the new transport open; else nothing. -/
def Obligations.ResetOfTheRxBlock : Prop :=
  State.reset.rs = .idle ∧ State.reset.emitted = [] ∧ State.reset.delivered = [] ∧
  (∀ (s : State) (rest : List Input), s.inputs = .reset :: rest →
    ∃ b0 b1 draws, step s = .next { s with rs := .idle, buf0 := b0, buf1 := b1, draws := draws, inputs := rest }) ∧
  ∀ (s : State) (id : Nat) (rest : List Input), s.inputs = .construct id :: rest →
    (s.env.ctrl = .stopped → s.env.pending = none → s.env.blocked = [] →
      ∃ t, step s = .next t ∧ t.rs = .idle ∧ t.emitted = s.emitted ∧ t.delivered = s.delivered ∧ t.inputs = rest ∧
        t.env.ctrl = .starting ∧ t.env.pending = none ∧ t.env.ackSlot = false ∧ t.env.store = Config.storeInit ∧
        t.env.openTransport = some id ∧ t.env.handshakeSent = false ∧ t.env.results = s.env.results) ∧
    (¬(s.env.ctrl = .stopped ∧ s.env.pending = none ∧ s.env.blocked = []) → step s = .next { s with inputs := rest })

/-- 10_state R35 (decision D2, D13): the suggested ports show the two blocks. RX: a step exactly when `rx_valid`; the events at the
output ports are those the clock emits, never both at once, none without `rx_valid`, and without it and `rst` nothing changes;
outside a `Reading` the ports tell nothing of `buf[0]` (R24). TX: exactly the commands that fit the default widths can stand at
the input ports; the error bit shows `OutOfRange`, the frames come in order and the last alone is marked. The model's choices:
with `rst` and `rx_valid` both 1 the reset follows the step, and what the ports carry outside a `Reading` (log 25). -/
def Obligations.PortsShowTheBlocks : Prop :=
  (∀ (s : State) (rst v : Bool) (b : Byte),
    (rxClock rst v b s).emitted = s.emitted ++ (rxPorts s.rs s.buf0 v b).events) ∧
  (∀ (rs : ReceiveState) (b0 b : Byte) (v : Bool),
    ¬((rxPorts rs b0 v b).evAck = true ∧ (rxPorts rs b0 v b).evReading = true) ∧ (rxPorts rs b0 false b).events = []) ∧
  (∀ (rs : ReceiveState) (b0 c0 b : Byte) (v : Bool), (rxPorts rs b0 v b).evReading = false →
    rxPorts rs c0 v b = rxPorts rs b0 v b) ∧
  (∀ (s : State) (b : Byte) (v : Bool), rxClock false true b s = feed b s ∧ rxClock false false b s = s ∧
    rxClock true v b s = rxReset (rxClock false v b s)) ∧
  (∀ c : Command, c.fitsPorts = true ↔ ∃ p : TxInPorts, p.command = c) ∧
  (∀ c : Command, (txPorts (encodeCommand c)).errOutOfRange = true ↔ encodeCommand c = .error .outOfRange) ∧
  (∀ (c : Command) (fs : List Frame), encodeCommand c = .frames fs →
    (txPorts (encodeCommand c)).frames.map Prod.fst = fs.map Frame.word ∧
    (txPorts (encodeCommand c)).frames.map Prod.snd = List.replicate (fs.length - 1) false ++ [true])

/-! ### The environment -/

/-- 45_environment R174 (decision D24), R175: which conversion each channel has, and the two conversions: a percentage for
Slider, Sound and the resistive inputs, in 0..99 and never decreasing; for Infrared and Button a Boolean, true exactly for raw 0.
R178 (decision D20): an unmapped channel converts to nothing. -/
def Obligations.ReadingConversion : Prop :=
  (∀ r : BitVec 10,
    convert ⟨.slider, r⟩ = some (.percent (percentOf r)) ∧ convert ⟨.sound, r⟩ = some (.percent (percentOf r)) ∧
    (∀ i, convert ⟨.resistiveInput i, r⟩ = some (.percent (percentOf r))) ∧
    convert ⟨.infrared, r⟩ = some (.flag (flagOf r)) ∧ convert ⟨.button, r⟩ = some (.flag (flagOf r)) ∧
    (∀ c, convert ⟨.unmapped c, r⟩ = none)) ∧
  (∀ r : BitVec 10, (percentOf r).val = r.toNat * 100 / 1024 ∧ (percentOf r).val ≤ 99 ∧ (flagOf r = true ↔ r = 0#10)) ∧
  (∀ r q : BitVec 10, r.toNat ≤ q.toNat → (percentOf r).val ≤ (percentOf q).val)

/-- 45_environment R176: the store notifies exactly when the converted value differs from the stored one, and then once; a
second application is silent; other channels keep their values. R178 (decision D20): an unmapped channel changes nothing. R177,
R193, R185: a subscription of the channel receives that notification after those before it, one of another channel nothing; that
they are lists of one delivery each is the model's choice (log 27). -/
def Obligations.StoreNotifiesOnChangeOnly : Prop :=
  ∀ (r : SensorReading) (e : Env),
    ((∃ c, r.channel = .unmapped c) → applyReading r e = e) ∧
    (∀ v, convert r = some v →
      SensorStore.read (applyReading r e).store r.channel = some v ∧
      (applyReading r e).notices = e.notices ++ (if SensorStore.read e.store r.channel = some v then [] else [⟨r.channel, v⟩]) ∧
      (applyReading r e).subscriptions = e.subscriptions.map (fun s =>
        if s.channel = r.channel ∧ SensorStore.read e.store r.channel ≠ some v
        then { s with received := s.received ++ [⟨r.channel, v⟩] } else s) ∧
      applyReading r (applyReading r e) = applyReading r e) ∧
    (∀ ch, ch ≠ r.channel → SensorStore.read (applyReading r e).store ch = SensorStore.read e.store ch) ∧
    (∀ P ch, envStep P (.subscribe ch) e = { e with subscriptions := e.subscriptions ++ [⟨ch, []⟩] })

/-- 45_environment R181, R179, R182: with retry budget `N`, on a transport that writes, if no `Ack` ever arrives, a send writes its
first frame exactly `N + 1` times, writes no later frame, and returns `NotResponding`; a wait without an `Ack` goes on until its
deadline, the sender's turns in between do nothing, and at the deadline it has elapsed. What fails on a transport that does not
write is `FailedWriteStopsTheController`. Time is the model's abstract ticks (log 9). -/
def Obligations.SilentSendWritesNPlusOneTimes : Prop :=
  (∀ (P : SenderParams) (e : Env) (p : PendingSend) (d : Nat),
    e.pending = some p → p.phase = .waiting d → e.ackSlot = false →
      senderTurn P e = e ∧
      (e.now + 1 < d → envStep P .tick e = { e with now := e.now + 1 }) ∧
      (d ≤ e.now + 1 → envStep P .tick e = { e with now := e.now + 1, pending := some { p with phase := .lapsed } })) ∧
  ∀ (P : SenderParams) (c : Command) (f : Frame) (later : List Frame) (e : Env),
    e.ctrl ≠ .stopped → e.writeFails = false → e.pending = none → e.ackSlot = false →
      (silentRounds P (P.maxRetries + 1) (startSend P (.caller c) (f :: later) e)).txStream =
          e.txStream ++ (List.replicate (P.maxRetries + 1) f.bytes).flatten ∧
      (silentRounds P (P.maxRetries + 1) (startSend P (.caller c) (f :: later) e)).pending = none ∧
      (silentRounds P (P.maxRetries + 1) (startSend P (.caller c) (f :: later) e)).results =
          e.results ++ [⟨c, .failed .notResponding⟩] ∧
      (silentRounds P (P.maxRetries + 1) (startSend P (.caller c) (f :: later) e)).ctrl = e.ctrl

/-- 45_environment R179, R183, R187: any `Ack` within the wait is sufficient, for a caller's send and the handshake's alike: the
next frame is written with a fresh retry budget, or, after the last one, the caller gets success, or the handshake's success
makes the controller `Ready`. R184: an `Ack` in the gap between the end of a wait and the rewrite is kept for the next wait if
`ACK_SLOT_STICKY` and dropped otherwise, and the rewrite leaves the slot as it is. The model's choices: one turn of the sender
takes the ack, empties the slot and writes the next frame (log 10), and the deadline is `now` plus the window (log 9). -/
def Obligations.AnyAckAdvancesTheSend : Prop :=
  ∀ (P : SenderParams) (e : Env) (p : PendingSend), e.pending = some p →
    (∀ d, p.phase = .waiting d →
      (∀ c, p.source = .caller c → p.rest = [] → senderTurn P (routeAck P e) =
        { e with pending := none, ackSlot := false, results := e.results ++ [⟨c, .ok⟩] }) ∧
      (p.source = .handshake → p.rest = [] → e.ctrl = .starting → senderTurn P (routeAck P e) =
        { e with pending := none, ackSlot := false, handshakeResult := some .ok, ctrl := .ready }) ∧
      (∀ g rest, p.rest = g :: rest → e.ctrl ≠ .stopped → e.writeFails = false → senderTurn P (routeAck P e) =
        { e with
          ackSlot := false
          txStream := e.txStream ++ g.bytes
          pending := some { p with frame := g, rest := rest, retries := 0, phase := .waiting (e.now + P.ackWindow) } })) ∧
    (p.phase = .lapsed →
      routeAck P e = (if P.ackSlotSticky = true then { e with ackSlot := true } else e) ∧
      (p.retries < P.maxRetries → e.ctrl ≠ .stopped → e.writeFails = false → senderTurn P e =
        { e with
          txStream := e.txStream ++ p.frame.bytes
          pending := some { p with retries := p.retries + 1, phase := .waiting (e.now + P.ackWindow) } }))

/-- 40_rx_ack R100, 45_environment R185: the RX block emits its `Ack` also when no send is outstanding, and the environment then
discards it. -/
def Obligations.UnexpectedAckDiscarded : Prop :=
  ∀ (s : State) (rest : List Input),
    s.inputs = .word (.rxb 0xAA#8) :: rest → s.rs = .secondAckHeaderSeen → s.emitted = [] → s.env.pending = none →
      s.env.ctrl ≠ .stopped →
        step s = .next { s with rs := .idle, delivered := s.delivered ++ [.ack], inputs := rest }

/-- 45_environment R188, 60_exceptions R202, R208 (decision D16): before the handshake succeeded every command of a caller, also
one out of range, fails with `NotReady`, and nothing else happens. -/
def Obligations.NotReadyBeforeHandshake : Prop :=
  ∀ (P : SenderParams) (c : Command) (e : Env), e.ctrl = .starting →
    envStep P (.issue c) e = { e with results := e.results ++ [⟨c, .failed .notReady⟩] }

/-- 45_environment R188, R190, 60_exceptions R201: a command accepted by a ready controller: out of range it fails at once; else
its first frame is written if no send is outstanding, and it waits its turn if one is. On a transport whose write fails it gets
`TransportClosed` (60_exceptions R200, R203) and the controller stops (R214, 45_environment R194). The model's choices: a
waiting command is queued with its frames encoded, and its error comes before the wait (log 15); the deadline is `now` plus the
window (log 9); which writes fail is an input (log 16). A grant (log 15) does nothing while a send is outstanding or for a number
no caller has; else that caller leaves the queue, and its first frame is written and its send is the outstanding one, or, where
the write fails or the controller has stopped (log 12, log 13), it gets a failure. -/
def Obligations.ReadyControllerSends : Prop :=
  (∀ (P : SenderParams) (c : Command) (e : Env), e.ctrl = .ready →
    (∀ err, encodeCommand c = .error err → envStep P (.issue c) e = { e with results := e.results ++ [⟨c, .failed err⟩] }) ∧
    (∀ f fs, encodeCommand c = .frames (f :: fs) → e.pending = none → e.writeFails = false →
      envStep P (.issue c) e =
        { e with
          txStream := e.txStream ++ f.bytes
          pending := some ⟨f, fs, 0, .waiting (e.now + P.ackWindow), .caller c⟩ }) ∧
    (∀ f fs, encodeCommand c = .frames (f :: fs) → e.pending = none → e.writeFails = true →
      envStep P (.issue c) e =
        { e with
          writeFails := false, ctrl := .stopped, ackSlot := false
          results := e.results ++ [⟨c, .failed .transportClosed⟩] }) ∧
    (∀ fs p, encodeCommand c = .frames fs → e.pending = some p →
      envStep P (.issue c) e = { e with blocked := e.blocked ++ [⟨c, fs⟩] })) ∧
  ∀ (P : SenderParams) (k : Nat) (e : Env),
    (e.pending ≠ none ∨ e.blocked[k]? = none → envStep P (.grant k) e = e) ∧
    ∀ call, e.pending = none → e.blocked[k]? = some call →
      (e.ctrl = .stopped → ∃ err, envStep P (.grant k) e =
        { e with
          blocked := e.blocked.eraseIdx k
          results := e.results ++ [⟨call.command, .failed err⟩]
          draws := e.draws + 1 }) ∧
      (∀ f fs, call.frames = f :: fs → e.ctrl ≠ .stopped → e.writeFails = false → envStep P (.grant k) e =
        { e with
          blocked := e.blocked.eraseIdx k
          txStream := e.txStream ++ f.bytes
          pending := some ⟨f, fs, 0, .waiting (e.now + P.ackWindow), .caller call.command⟩ }) ∧
      (∀ f fs, call.frames = f :: fs → e.ctrl ≠ .stopped → e.writeFails = true → envStep P (.grant k) e =
        { e with
          blocked := e.blocked.eraseIdx k, writeFails := false, ctrl := .stopped, ackSlot := false
          results := e.results ++ [⟨call.command, .failed .transportClosed⟩] })

/-- 45_environment R187, 70_reset_and_hazards R232: the handshake writes the one frame `54 FE A0 FF` while the controller is
`Starting`, and waits for its ack as any send does; where that write fails it ends in `TransportClosed` and the controller stops
(R194, 60_exceptions R214; log 16). When it is given up its failure is kept and the controller stays `Starting`; it is issued
once, and never beside another send (log 14). The deadline is `now` plus the window (log 9). -/
def Obligations.HandshakeSendsBurstEnable : Prop :=
  (∀ (P : SenderParams) (e : Env), e.ctrl = .starting →
    (e.handshakeSent = false → e.pending = none → e.writeFails = false →
      envStep P .handshake e =
        { e with
          handshakeSent := true
          txStream := e.txStream ++ [0x54#8, 0xFE#8, 0xA0#8, 0xFF#8]
          pending := some
            ⟨⟨0x54#8, 0xFE#8, 0xA0#8, 0xFF#8⟩, [], 0, .waiting (e.now + P.ackWindow), .handshake⟩ }) ∧
    (e.handshakeSent = false → e.pending = none → e.writeFails = true →
      envStep P .handshake e =
        { e with
          handshakeSent := true, writeFails := false, ctrl := .stopped, ackSlot := false
          handshakeResult := some (.failed .transportClosed) }) ∧
    (∀ p, e.pending = some p → p.source = .handshake → p.phase = .lapsed → P.maxRetries ≤ p.retries →
      envStep P .sender e =
        { e with pending := none, ackSlot := false, handshakeResult := some (.failed .notResponding) })) ∧
  ∀ (P : SenderParams) (e : Env), e.ctrl ≠ .starting ∨ e.handshakeSent = true ∨ e.pending ≠ none →
    envStep P .handshake e = e

/-- 45_environment R179, R194, 60_exceptions R200, R203, R214: a write that fails, of a retry or of a next frame, writes nothing,
ends its send with `TransportClosed` and stops the controller. Which writes fail is an input, and all do on a closed transport
(log 13, log 16); that the next frame is written in the turn that takes the ack is log 10. The first write of a send is in
`ReadyControllerSends` and `HandshakeSendsBurstEnable`. -/
def Obligations.FailedWriteStopsTheController : Prop :=
  (∀ (P : SenderParams) (e : Env), envStep P .failWrite e = { e with writeFails := true }) ∧
  ∀ (P : SenderParams) (e : Env) (p : PendingSend), e.pending = some p → e.ctrl = .stopped ∨ e.writeFails = true →
    (p.phase = .lapsed ∧ p.retries < P.maxRetries) ∨ (∃ d, p.phase = .waiting d ∧ e.ackSlot = true ∧ p.rest ≠ []) →
      (envStep P .sender e).txStream = e.txStream ∧ (envStep P .sender e).pending = none ∧
      (envStep P .sender e).ctrl = .stopped ∧ (envStep P .sender e).ackSlot = false ∧
      (∀ c, p.source = .caller c →
        (envStep P .sender e).results = e.results ++ [⟨c, .failed .transportClosed⟩]) ∧
      (p.source = .handshake →
        (envStep P .sender e).results = e.results ∧
        (envStep P .sender e).handshakeResult = some (.failed .transportClosed))

/-- 45_environment R186, R187, 60_exceptions R214: the controller becomes `Ready` only from `Starting` and only by the success of
its own handshake; it never leaves `Stopped`, and `Starting` is never entered again, but by the construction of a new controller
(R193; log 26). -/
def Obligations.LifecycleOnlyMovesForward : Prop :=
  ∀ s t : State, step s = .next t →
    (s.env.ctrl = .stopped → t.env.ctrl = .stopped ∨ ∃ id rest, s.inputs = .construct id :: rest) ∧
    (t.env.ctrl = .ready → s.env.ctrl ≠ .ready →
      s.env.ctrl = .starting ∧ ∃ p d, s.env.pending = some p ∧ p.source = .handshake ∧ p.phase = .waiting d ∧
        s.env.ackSlot = true ∧ p.rest = []) ∧
    (t.env.ctrl = .starting → s.env.ctrl = .starting ∨
      s.env.ctrl = .stopped ∧ ∃ id rest, s.inputs = .construct id :: rest)

/-- 45_environment R189, R193, 60_exceptions R203: a failed read stops the controller and resolves the outstanding send to a
failure, a caller's and the handshake's alike, and every command issued to a stopped controller resolves to a failure. R186,
R192, 60_exceptions R214: the shutdown operation stops the controller and closes the transport, and cancels no send. The model's
choices: the failure of the outstanding send is `TransportClosed`, and until a new controller is constructed (log 26) a stopped
one, after a shutdown too, writes nothing (log 13) and feeds no received byte (log 17). -/
def Obligations.StoppedControllerIsInert : Prop :=
  (∀ (P : SenderParams) (e : Env), e.ctrl ≠ .stopped →
    (envStep P .readError e).ctrl = .stopped ∧ (envStep P .readError e).pending = none ∧
    (envStep P .readError e).openTransport = none ∧ (envStep P .readError e).txStream = e.txStream ∧
    (e.pending = none → (envStep P .readError e).results = e.results) ∧
    (∀ p c, e.pending = some p → p.source = .caller c →
      (envStep P .readError e).results = e.results ++ [⟨c, .failed .transportClosed⟩]) ∧
    (∀ p, e.pending = some p → p.source = .handshake →
      (envStep P .readError e).results = e.results ∧
      (envStep P .readError e).handshakeResult = some (.failed .transportClosed))) ∧
  (∀ (P : SenderParams) (e : Env),
    (envStep P .shutdown e).ctrl = .stopped ∧ (envStep P .shutdown e).openTransport = none ∧
    (envStep P .shutdown e).pending = e.pending ∧ (envStep P .shutdown e).results = e.results ∧
    (envStep P .shutdown e).txStream = e.txStream) ∧
  (∀ s t : State, s.env.ctrl = .stopped → s.emitted = [] → (∀ id rest, s.inputs ≠ .construct id :: rest) →
    step s = .next t →
      t.env.txStream = s.env.txStream ∧ t.delivered = s.delivered ∧ t.env.store = s.env.store ∧
      (∀ c rest, s.inputs = .env (.issue c) :: rest → ∃ err, t.env.results = s.env.results ++ [⟨c, .failed err⟩]))

/-- 45_environment R180, R183, R190: at most one send is outstanding: an outstanding send is never replaced by another within a
step, and its source never changes. -/
def Obligations.SendSectionIsExclusive : Prop :=
  ∀ (s t : State) (p q : PendingSend), step s = .next t → s.env.pending = some p → t.env.pending = some q →
    q.source = p.source ∧ (q.frame = p.frame ∧ q.rest = p.rest ∨ p.rest = q.frame :: q.rest)

/-! ### Invariants -/

/-- The invariant holds after reset. -/
def Obligations.InvariantAtReset : Prop := Inv State.reset

/-- Headline: every step keeps the invariant of the machine. No event stays latched (60_exceptions R206); the TX block returned
only frames of its shape or `OutOfRange` (30_encoding R62, R63); the tx stream is whole frames of that shape end to end
(20_memory R47, R50); delivered readings name reportable channels (41_rx_burst R117); retries stay within budget and before
`Ready` only the handshake is sent (45_environment R181, R187); a subscription has received the latest notifications of its
channel in order (R177). The model's choices among the clauses: a wait within its deadline (log 9), the handoff slot empty
without a send (log 10), blocked calls encoded and none before `Ready` (log 15), subscriptions as lists (log 27). -/
def Obligations.StepKeepsInvariant : Prop := ∀ s t : State, Inv s → step s = .next t → Inv t
end

