-- ==== Sys2Proof/Laws/Env.lean ====
section
/-! SUPPORT. What each operation of the environment can do, said once. -/

namespace Sys2Proof.Machine

open Sys2Proof

variable {P : SenderParams} {e : Env}

/-! ### The transport -/

theorem openTransport_isSome (e : Env) : e.openTransport.isSome = true ↔ e.ctrl ≠ .stopped := by
  by_cases h : e.ctrl = .stopped <;> simp [Env.openTransport, h]

/-- A write succeeds while the controller is not stopped and no failure is armed. -/
theorem canWrite_iff (e : Env) : e.canWrite = true ↔ e.ctrl ≠ .stopped ∧ e.writeFails = false := by
  simp [Env.canWrite, openTransport_isSome]

theorem canWrite_stopped (h : e.ctrl = .stopped) : e.canWrite = false := by
  simp [Env.canWrite, Env.openTransport, h]

/-! ### The end of a send -/

@[simp] theorem finish_pending (src : SendSource) (r : CmdResult) (e : Env) : (e.finish src r).pending = none := by
  cases src <;> rfl
@[simp] theorem finish_ackSlot (src : SendSource) (r : CmdResult) (e : Env) : (e.finish src r).ackSlot = false := by
  cases src <;> rfl
@[simp] theorem finish_txStream (src : SendSource) (r : CmdResult) (e : Env) : (e.finish src r).txStream = e.txStream := by
  cases src <;> rfl
@[simp] theorem finish_store (src : SendSource) (r : CmdResult) (e : Env) : (e.finish src r).store = e.store := by
  cases src <;> rfl
@[simp] theorem finish_notices (src : SendSource) (r : CmdResult) (e : Env) : (e.finish src r).notices = e.notices := by
  cases src <;> rfl
@[simp] theorem finish_blocked (src : SendSource) (r : CmdResult) (e : Env) : (e.finish src r).blocked = e.blocked := by
  cases src <;> rfl
@[simp] theorem finish_now (src : SendSource) (r : CmdResult) (e : Env) : (e.finish src r).now = e.now := by
  cases src <;> rfl
@[simp] theorem finish_subscriptions (src : SendSource) (r : CmdResult) (e : Env) :
    (e.finish src r).subscriptions = e.subscriptions := by
  cases src <;> rfl
@[simp] theorem finish_transportId (src : SendSource) (r : CmdResult) (e : Env) :
    (e.finish src r).transportId = e.transportId := by
  cases src <;> rfl
@[simp] theorem finish_handshakeSent (src : SendSource) (r : CmdResult) (e : Env) :
    (e.finish src r).handshakeSent = e.handshakeSent := by
  cases src <;> rfl

/-- A send that ends moves the lifecycle only from `Starting` to `Ready`, by the handshake's success. -/
theorem finish_ctrl (src : SendSource) (r : CmdResult) (e : Env) :
    (e.finish src r).ctrl = e.ctrl ∨
      (src = .handshake ∧ r = .ok ∧ e.ctrl = .starting ∧ (e.finish src r).ctrl = .ready) := by
  cases src with
  | caller c => exact .inl rfl
  | handshake =>
    by_cases h : r = .ok ∧ e.ctrl = .starting
    · exact .inr ⟨rfl, h.1, h.2, by simp [Env.finish, h]⟩
    · exact .inl (by simp [Env.finish, h])

/-! ### The sender -/

/-- On a transport that writes, an attempt is one frame on the stream and a wait. -/
theorem attempt_of_canWrite (p : PendingSend) (h : e.canWrite = true) :
    attempt P p e =
      { e with
        txStream := e.txStream ++ p.frame.bytes
        pending := some { p with phase := .waiting (e.now + P.ackWindow) } } := if_pos h

/-- A failed write ends the send and stops the controller. -/
theorem attempt_of_not_canWrite (p : PendingSend) (h : e.canWrite = false) :
    attempt P p e = ({ e with writeFails := false, ctrl := .stopped }).finish p.source (.failed .transportClosed) :=
  if_neg (by simp [h])

/-- One attempt writes the frame and begins the wait, or the write fails, the controller stops and the send ends. -/
theorem attempt_cases (P : SenderParams) (p : PendingSend) (e : Env) :
    (e.canWrite = true ∧ attempt P p e =
      { e with
        txStream := e.txStream ++ p.frame.bytes
        pending := some { p with phase := .waiting (e.now + P.ackWindow) } }) ∨
    (e.canWrite = false ∧ attempt P p e =
      ({ e with writeFails := false, ctrl := .stopped }).finish p.source (.failed .transportClosed)) := by
  cases h : e.canWrite
  · exact .inr ⟨rfl, attempt_of_not_canWrite p h⟩
  · exact .inl ⟨rfl, attempt_of_canWrite p h⟩

/-- Everything the sender's turn can do. -/
theorem senderTurn_cases (P : SenderParams) (e : Env) :
    senderTurn P e = e ∨
    (∃ p d, e.pending = some p ∧ p.phase = .waiting d ∧ e.ackSlot = true ∧ p.rest = [] ∧
      senderTurn P e = e.finish p.source .ok) ∨
    (∃ p d f rest, e.pending = some p ∧ p.phase = .waiting d ∧ e.ackSlot = true ∧ p.rest = f :: rest ∧
      senderTurn P e = attempt P { p with frame := f, rest := rest, retries := 0 } { e with ackSlot := false }) ∨
    (∃ p, e.pending = some p ∧ p.phase = .lapsed ∧ p.retries < P.maxRetries ∧
      senderTurn P e = attempt P { p with retries := p.retries + 1 } e) ∨
    (∃ p, e.pending = some p ∧ p.phase = .lapsed ∧ P.maxRetries ≤ p.retries ∧
      senderTurn P e = e.finish p.source (.failed .notResponding)) := by
  cases hp : e.pending with
  | none => exact .inl (by simp [senderTurn, hp])
  | some p =>
    cases hph : p.phase with
    | waiting d =>
      cases hs : e.ackSlot with
      | false => exact .inl (by simp [senderTurn, hp, hph, hs])
      | true =>
        cases hr : p.rest with
        | nil => exact .inr (.inl ⟨p, d, rfl, hph, rfl, hr, by simp [senderTurn, hp, hph, hs, frameAcked, hr]⟩)
        | cons f rest =>
          exact .inr (.inr (.inl ⟨p, d, f, rest, rfl, hph, rfl, hr, by simp [senderTurn, hp, hph, hs, frameAcked, hr]⟩))
    | lapsed =>
      by_cases hn : p.retries < P.maxRetries
      · exact .inr (.inr (.inr (.inl ⟨p, rfl, hph, hn, by simp [senderTurn, hp, hph, hn]⟩)))
      · exact .inr (.inr (.inr (.inr ⟨p, rfl, hph, Nat.le_of_not_lt hn, by simp [senderTurn, hp, hph, hn]⟩)))

/-- Routing an `Ack` touches the handoff slot alone, and only with a send outstanding. -/
theorem routeAck_cases (P : SenderParams) (e : Env) :
    routeAck P e = e ∨ (e.pending ≠ none ∧ routeAck P e = { e with ackSlot := true }) := by
  unfold routeAck
  cases hp : e.pending with
  | none => exact .inl rfl
  | some p =>
    dsimp only
    split
    · exact .inr ⟨by simp, rfl⟩
    · split
      · exact .inr ⟨by simp, rfl⟩
      · exact .inl rfl

/-- A tick advances the time, and ends a wait whose deadline is reached with an empty slot. -/
theorem tick_cases (e : Env) :
    (tick e = { e with now := e.now + 1 } ∧
      ∀ p d, e.pending = some p → p.phase = .waiting d → e.ackSlot = false → e.now + 1 < d) ∨
    (∃ p d, e.pending = some p ∧ p.phase = .waiting d ∧ d ≤ e.now + 1 ∧ e.ackSlot = false ∧
      tick e = { e with now := e.now + 1, pending := some { p with phase := .lapsed } }) := by
  unfold tick
  cases hp : e.pending with
  | none => exact .inl ⟨rfl, by simp⟩
  | some p =>
    cases hph : p.phase with
    | lapsed =>
      refine .inl ⟨by simp [hph], ?_⟩
      intro q d hq hd
      cases hq
      rw [hph] at hd
      cases hd
    | waiting d =>
      by_cases hc : d ≤ e.now + 1 ∧ e.ackSlot = false
      · exact .inr ⟨p, d, rfl, hph, hc.1, hc.2, by simp [hph, hc]⟩
      · refine .inl ⟨by simp [hph, hc], ?_⟩
        intro q d' hq hd hs
        cases hq
        rw [hph] at hd
        cases hd
        by_contra hlt
        exact hc ⟨by omega, hs⟩

/-! ### The store -/

@[simp] theorem notify_notices (n : Notification) (e : Env) : (e.notify n).notices = e.notices ++ [n] := rfl
@[simp] theorem notify_store (n : Notification) (e : Env) : (e.notify n).store = e.store := rfl
@[simp] theorem notify_subscriptions (n : Notification) (e : Env) :
    (e.notify n).subscriptions =
      e.subscriptions.map (fun s => if s.channel = n.channel then { s with received := s.received ++ [n] } else s) := rfl

/-- A notification touches the notifications and the subscriptions, nothing else. -/
theorem notify_eq (n : Notification) (e : Env) :
    e.notify n = { e with notices := (e.notify n).notices, subscriptions := (e.notify n).subscriptions } := rfl

/-- Applying a reading changes nothing, or one stored value with its one notification. -/
theorem applyReading_cases (r : SensorReading) (e : Env) :
    applyReading r e = e ∨
    (∃ v, convert r = some v ∧ SensorStore.read e.store r.channel ≠ some v ∧
      applyReading r e =
        ({ e with store := SensorStore.write e.store r.channel v }).notify ⟨r.channel, v⟩) := by
  unfold applyReading
  cases hc : convert r with
  | none => exact .inl rfl
  | some v =>
    by_cases h : SensorStore.read e.store r.channel = some v
    · exact .inl (by simp [h])
    · exact .inr ⟨v, rfl, h, by simp [h]⟩

/-- Routing an event changes nothing of the environment but the handoff slot, the store, the notifications and what
subscriptions received. -/
theorem routeEvent_frame (P : SenderParams) (e : Env) (ev : DecodedEvent) :
    (routeEvent P e ev).ctrl = e.ctrl ∧ (routeEvent P e ev).pending = e.pending ∧
      (routeEvent P e ev).txStream = e.txStream ∧ (routeEvent P e ev).blocked = e.blocked ∧
      (routeEvent P e ev).results = e.results ∧ (routeEvent P e ev).now = e.now ∧
      (routeEvent P e ev).handshakeSent = e.handshakeSent ∧ (routeEvent P e ev).writeFails = e.writeFails ∧
      (routeEvent P e ev).handshakeResult = e.handshakeResult ∧ (routeEvent P e ev).transportId = e.transportId := by
  cases ev with
  | ack =>
    obtain h | ⟨-, h⟩ := routeAck_cases P e <;> simp [routeEvent, h]
  | reading r =>
    obtain h | ⟨v, -, -, h⟩ := applyReading_cases r e <;> simp [routeEvent, h, Env.notify]

/-- The same for a list of events. -/
theorem routeEvents_frame (P : SenderParams) (evs : List DecodedEvent) (e : Env) :
    (evs.foldl (routeEvent P) e).ctrl = e.ctrl ∧ (evs.foldl (routeEvent P) e).pending = e.pending ∧
      (evs.foldl (routeEvent P) e).txStream = e.txStream ∧ (evs.foldl (routeEvent P) e).blocked = e.blocked ∧
      (evs.foldl (routeEvent P) e).results = e.results ∧ (evs.foldl (routeEvent P) e).now = e.now ∧
      (evs.foldl (routeEvent P) e).handshakeSent = e.handshakeSent ∧
      (evs.foldl (routeEvent P) e).writeFails = e.writeFails ∧
      (evs.foldl (routeEvent P) e).handshakeResult = e.handshakeResult ∧
      (evs.foldl (routeEvent P) e).transportId = e.transportId := by
  induction evs generalizing e with
  | nil => simp
  | cons ev evs ih =>
    obtain ⟨h1, h2, h3, h4, h5, h6, h7, h8, h9, h10⟩ := routeEvent_frame P e ev
    obtain ⟨i1, i2, i3, i4, i5, i6, i7, i8, i9, i10⟩ := ih (routeEvent P e ev)
    exact ⟨i1.trans h1, i2.trans h2, i3.trans h3, i4.trans h4, i5.trans h5, i6.trans h6, i7.trans h7, i8.trans h8,
      i9.trans h9, i10.trans h10⟩

/-! ### Construction -/

/-- A construction does nothing, or begins as at reset, its transport's identifier and the kept histories apart. -/
theorem construct_cases (id : Nat) (s : State) :
    construct id s = s ∨
    (s.env.ctrl = .stopped ∧ s.env.pending = none ∧ s.env.blocked = [] ∧
      construct id s = { rxReset s with
        env := { Env.reset with transportId := id, results := s.env.results, now := s.env.now, draws := s.env.draws } }) := by
  by_cases h : s.env.ctrl = .stopped ∧ s.env.pending = none ∧ s.env.blocked = []
  · exact .inr ⟨h.1, h.2.1, h.2.2, if_pos h⟩
  · exact .inl (if_neg h)

/-- The frame of a construction: the outputs and the inputs. -/
theorem construct_frame (id : Nat) (s : State) :
    (construct id s).emitted = s.emitted ∧ (construct id s).returned = s.returned ∧
      (construct id s).delivered = s.delivered ∧ (construct id s).inputs = s.inputs := by
  obtain h | ⟨-, -, -, h⟩ := construct_cases id s <;> rw [h] <;> exact ⟨rfl, rfl, rfl, rfl⟩

@[simp] theorem construct_emitted (id : Nat) (s : State) : (construct id s).emitted = s.emitted := (construct_frame id s).1
@[simp] theorem construct_returned (id : Nat) (s : State) : (construct id s).returned = s.returned := (construct_frame id s).2.1
@[simp] theorem construct_delivered (id : Nat) (s : State) : (construct id s).delivered = s.delivered :=
  (construct_frame id s).2.2.1
@[simp] theorem construct_inputs (id : Nat) (s : State) : (construct id s).inputs = s.inputs := (construct_frame id s).2.2.2

end Sys2Proof.Machine
end

