-- ==== Sys2Proof/Laws/State.lean ====
section
/-! SUPPORT. One lemma per field and update of State, true by rfl, so that no proof unfolds a record update. -/

namespace Sys2Proof.Machine

open Sys2Proof

@[simp] theorem State.goto_rs (r : ReceiveState) (s : State) : (s.goto r).rs = r := rfl
@[simp] theorem State.goto_buf0 (r : ReceiveState) (s : State) : (s.goto r).buf0 = s.buf0 := rfl
@[simp] theorem State.goto_buf1 (r : ReceiveState) (s : State) : (s.goto r).buf1 = s.buf1 := rfl
@[simp] theorem State.goto_emitted (r : ReceiveState) (s : State) : (s.goto r).emitted = s.emitted := rfl
@[simp] theorem State.goto_returned (r : ReceiveState) (s : State) : (s.goto r).returned = s.returned := rfl
@[simp] theorem State.goto_delivered (r : ReceiveState) (s : State) : (s.goto r).delivered = s.delivered := rfl
@[simp] theorem State.goto_env (r : ReceiveState) (s : State) : (s.goto r).env = s.env := rfl
@[simp] theorem State.goto_inputs (r : ReceiveState) (s : State) : (s.goto r).inputs = s.inputs := rfl
@[simp] theorem State.goto_draws (r : ReceiveState) (s : State) : (s.goto r).draws = s.draws := rfl

@[simp] theorem State.storeBuf0_rs (b : Byte) (s : State) : (s.storeBuf0 b).rs = s.rs := rfl
@[simp] theorem State.storeBuf0_buf0 (b : Byte) (s : State) : (s.storeBuf0 b).buf0 = b := rfl
@[simp] theorem State.storeBuf0_buf1 (b : Byte) (s : State) : (s.storeBuf0 b).buf1 = s.buf1 := rfl
@[simp] theorem State.storeBuf0_emitted (b : Byte) (s : State) : (s.storeBuf0 b).emitted = s.emitted := rfl
@[simp] theorem State.storeBuf0_returned (b : Byte) (s : State) : (s.storeBuf0 b).returned = s.returned := rfl
@[simp] theorem State.storeBuf0_delivered (b : Byte) (s : State) : (s.storeBuf0 b).delivered = s.delivered := rfl
@[simp] theorem State.storeBuf0_env (b : Byte) (s : State) : (s.storeBuf0 b).env = s.env := rfl
@[simp] theorem State.storeBuf0_inputs (b : Byte) (s : State) : (s.storeBuf0 b).inputs = s.inputs := rfl
@[simp] theorem State.storeBuf0_draws (b : Byte) (s : State) : (s.storeBuf0 b).draws = s.draws := rfl

@[simp] theorem State.storeBuf1_rs (b : Byte) (s : State) : (s.storeBuf1 b).rs = s.rs := rfl
@[simp] theorem State.storeBuf1_buf0 (b : Byte) (s : State) : (s.storeBuf1 b).buf0 = s.buf0 := rfl
@[simp] theorem State.storeBuf1_buf1 (b : Byte) (s : State) : (s.storeBuf1 b).buf1 = b := rfl
@[simp] theorem State.storeBuf1_emitted (b : Byte) (s : State) : (s.storeBuf1 b).emitted = s.emitted := rfl
@[simp] theorem State.storeBuf1_returned (b : Byte) (s : State) : (s.storeBuf1 b).returned = s.returned := rfl
@[simp] theorem State.storeBuf1_delivered (b : Byte) (s : State) : (s.storeBuf1 b).delivered = s.delivered := rfl
@[simp] theorem State.storeBuf1_env (b : Byte) (s : State) : (s.storeBuf1 b).env = s.env := rfl
@[simp] theorem State.storeBuf1_inputs (b : Byte) (s : State) : (s.storeBuf1 b).inputs = s.inputs := rfl
@[simp] theorem State.storeBuf1_draws (b : Byte) (s : State) : (s.storeBuf1 b).draws = s.draws := rfl

@[simp] theorem State.emit_rs (e : DecodedEvent) (s : State) : (s.emit e).rs = s.rs := rfl
@[simp] theorem State.emit_buf0 (e : DecodedEvent) (s : State) : (s.emit e).buf0 = s.buf0 := rfl
@[simp] theorem State.emit_buf1 (e : DecodedEvent) (s : State) : (s.emit e).buf1 = s.buf1 := rfl
@[simp] theorem State.emit_emitted (e : DecodedEvent) (s : State) : (s.emit e).emitted = s.emitted ++ [e] := rfl
@[simp] theorem State.emit_returned (e : DecodedEvent) (s : State) : (s.emit e).returned = s.returned := rfl
@[simp] theorem State.emit_delivered (e : DecodedEvent) (s : State) : (s.emit e).delivered = s.delivered := rfl
@[simp] theorem State.emit_env (e : DecodedEvent) (s : State) : (s.emit e).env = s.env := rfl
@[simp] theorem State.emit_inputs (e : DecodedEvent) (s : State) : (s.emit e).inputs = s.inputs := rfl
@[simp] theorem State.emit_draws (e : DecodedEvent) (s : State) : (s.emit e).draws = s.draws := rfl

@[simp] theorem State.emitReading_rs (s : State) : (s.emitReading).rs = s.rs := rfl
@[simp] theorem State.emitReading_buf0 (s : State) : (s.emitReading).buf0 = s.buf0 := rfl
@[simp] theorem State.emitReading_buf1 (s : State) : (s.emitReading).buf1 = s.buf1 := rfl
@[simp] theorem State.emitReading_emitted (s : State) : (s.emitReading).emitted = s.emitted ++ [.reading (readingOf s.buf0 s.buf1)] := rfl
@[simp] theorem State.emitReading_returned (s : State) : (s.emitReading).returned = s.returned := rfl
@[simp] theorem State.emitReading_delivered (s : State) : (s.emitReading).delivered = s.delivered := rfl
@[simp] theorem State.emitReading_env (s : State) : (s.emitReading).env = s.env := rfl
@[simp] theorem State.emitReading_inputs (s : State) : (s.emitReading).inputs = s.inputs := rfl
@[simp] theorem State.emitReading_draws (s : State) : (s.emitReading).draws = s.draws := rfl

@[simp] theorem State.returnTx_rs (r : TxResult) (s : State) : (s.returnTx r).rs = s.rs := rfl
@[simp] theorem State.returnTx_buf0 (r : TxResult) (s : State) : (s.returnTx r).buf0 = s.buf0 := rfl
@[simp] theorem State.returnTx_buf1 (r : TxResult) (s : State) : (s.returnTx r).buf1 = s.buf1 := rfl
@[simp] theorem State.returnTx_emitted (r : TxResult) (s : State) : (s.returnTx r).emitted = s.emitted := rfl
@[simp] theorem State.returnTx_returned (r : TxResult) (s : State) : (s.returnTx r).returned = s.returned ++ [r] := rfl
@[simp] theorem State.returnTx_delivered (r : TxResult) (s : State) : (s.returnTx r).delivered = s.delivered := rfl
@[simp] theorem State.returnTx_env (r : TxResult) (s : State) : (s.returnTx r).env = s.env := rfl
@[simp] theorem State.returnTx_inputs (r : TxResult) (s : State) : (s.returnTx r).inputs = s.inputs := rfl
@[simp] theorem State.returnTx_draws (r : TxResult) (s : State) : (s.returnTx r).draws = s.draws := rfl

@[simp] theorem State.raise_rs (e : ErrorKind) (s : State) : (s.raise e).rs = s.rs := rfl
@[simp] theorem State.raise_buf0 (e : ErrorKind) (s : State) : (s.raise e).buf0 = s.buf0 := rfl
@[simp] theorem State.raise_buf1 (e : ErrorKind) (s : State) : (s.raise e).buf1 = s.buf1 := rfl
@[simp] theorem State.raise_emitted (e : ErrorKind) (s : State) : (s.raise e).emitted = s.emitted := rfl
@[simp] theorem State.raise_returned (e : ErrorKind) (s : State) : (s.raise e).returned = s.returned ++ [.error e] := rfl
@[simp] theorem State.raise_delivered (e : ErrorKind) (s : State) : (s.raise e).delivered = s.delivered := rfl
@[simp] theorem State.raise_env (e : ErrorKind) (s : State) : (s.raise e).env = s.env := rfl
@[simp] theorem State.raise_inputs (e : ErrorKind) (s : State) : (s.raise e).inputs = s.inputs := rfl
@[simp] theorem State.raise_draws (e : ErrorKind) (s : State) : (s.raise e).draws = s.draws := rfl

@[simp] theorem State.advance_rs (rest : List Input) (s : State) : (s.advance rest).rs = s.rs := rfl
@[simp] theorem State.advance_buf0 (rest : List Input) (s : State) : (s.advance rest).buf0 = s.buf0 := rfl
@[simp] theorem State.advance_buf1 (rest : List Input) (s : State) : (s.advance rest).buf1 = s.buf1 := rfl
@[simp] theorem State.advance_emitted (rest : List Input) (s : State) : (s.advance rest).emitted = s.emitted := rfl
@[simp] theorem State.advance_returned (rest : List Input) (s : State) : (s.advance rest).returned = s.returned := rfl
@[simp] theorem State.advance_delivered (rest : List Input) (s : State) : (s.advance rest).delivered = s.delivered := rfl
@[simp] theorem State.advance_env (rest : List Input) (s : State) : (s.advance rest).env = s.env := rfl
@[simp] theorem State.advance_inputs (rest : List Input) (s : State) : (s.advance rest).inputs = rest := rfl
@[simp] theorem State.advance_draws (rest : List Input) (s : State) : (s.advance rest).draws = s.draws := rfl

@[simp] theorem rxReset_rs (s : State) : (rxReset s).rs = .idle := rfl
@[simp] theorem rxReset_buf0 (s : State) : (rxReset s).buf0 = Config.freeByte s.draws := rfl
@[simp] theorem rxReset_buf1 (s : State) : (rxReset s).buf1 = Config.freeByte (s.draws + 1) := rfl
@[simp] theorem rxReset_emitted (s : State) : (rxReset s).emitted = s.emitted := rfl
@[simp] theorem rxReset_returned (s : State) : (rxReset s).returned = s.returned := rfl
@[simp] theorem rxReset_delivered (s : State) : (rxReset s).delivered = s.delivered := rfl
@[simp] theorem rxReset_env (s : State) : (rxReset s).env = s.env := rfl
@[simp] theorem rxReset_inputs (s : State) : (rxReset s).inputs = s.inputs := rfl
@[simp] theorem rxReset_draws (s : State) : (rxReset s).draws = s.draws + 2 := rfl

@[simp] theorem Env.subscribe_ctrl (ch : SensorChannel) (e : Env) : (e.subscribe ch).ctrl = e.ctrl := rfl
@[simp] theorem Env.subscribe_pending (ch : SensorChannel) (e : Env) : (e.subscribe ch).pending = e.pending := rfl
@[simp] theorem Env.subscribe_txStream (ch : SensorChannel) (e : Env) : (e.subscribe ch).txStream = e.txStream := rfl
@[simp] theorem Env.subscribe_store (ch : SensorChannel) (e : Env) : (e.subscribe ch).store = e.store := rfl
@[simp] theorem Env.subscribe_notices (ch : SensorChannel) (e : Env) : (e.subscribe ch).notices = e.notices := rfl
@[simp] theorem Env.subscribe_subscriptions (ch : SensorChannel) (e : Env) :
    (e.subscribe ch).subscriptions = e.subscriptions ++ [⟨ch, []⟩] := rfl

@[simp] theorem routeEvents_rs (P : SenderParams) (s : State) : (routeEvents P s).rs = s.rs := rfl
@[simp] theorem routeEvents_buf0 (P : SenderParams) (s : State) : (routeEvents P s).buf0 = s.buf0 := rfl
@[simp] theorem routeEvents_buf1 (P : SenderParams) (s : State) : (routeEvents P s).buf1 = s.buf1 := rfl
@[simp] theorem routeEvents_emitted (P : SenderParams) (s : State) : (routeEvents P s).emitted = [] := rfl
@[simp] theorem routeEvents_returned (P : SenderParams) (s : State) : (routeEvents P s).returned = s.returned := rfl
@[simp] theorem routeEvents_delivered (P : SenderParams) (s : State) : (routeEvents P s).delivered = s.delivered ++ s.emitted := rfl
@[simp] theorem routeEvents_env (P : SenderParams) (s : State) : (routeEvents P s).env = s.emitted.foldl (routeEvent P) s.env := rfl
@[simp] theorem routeEvents_inputs (P : SenderParams) (s : State) : (routeEvents P s).inputs = s.inputs := rfl
@[simp] theorem routeEvents_draws (P : SenderParams) (s : State) : (routeEvents P s).draws = s.draws := rfl

end Sys2Proof.Machine
end

