-- ==== Sys2Proof/Laws/Ops.lean ====
section
/-! SUPPORT. What each shared operation of the two blocks can do, said once. -/

namespace Sys2Proof.Machine

open Sys2Proof

variable {s t : State} {b : Byte}

/-! ### The step function of the RX block -/

theorem feed_idle (h : s.rs = .idle) :
    feed b s =
      if b = Config.ackH1 then s.goto .firstAckHeaderSeen
      else if b = Config.burstH then s.goto .burstHeaderSeen
      else s.goto .idle := by
  simp [feed, h]

theorem feed_firstAck (h : s.rs = .firstAckHeaderSeen) :
    feed b s = if b = Config.ackH2 then s.goto .secondAckHeaderSeen else s.goto .idle := by
  simp [feed, h]

theorem feed_secondAck (h : s.rs = .secondAckHeaderSeen) :
    feed b s = if b = Config.ackB then (s.goto .idle).emit .ack else s.goto .idle := by
  simp [feed, h]

theorem feed_burstHeader (h : s.rs = .burstHeaderSeen) :
    feed b s = (s.storeBuf0 b).goto .burstFirstByteSeen := by
  simp [feed, h]

theorem feed_burstFirst (h : s.rs = .burstFirstByteSeen) :
    feed b s = ((s.storeBuf1 b).goto .idle).emitReading := by
  simp [feed, h]

/-- Everything a step of the RX block can do: it moves `rs` alone, or stores in `buf[0]`, or stores in `buf[1]` and emits the
reading, or emits an `Ack`. -/
theorem feed_cases (b : Byte) (s : State) :
    (∃ r, feed b s = s.goto r ∧ s.rs ≠ .burstHeaderSeen ∧ s.rs ≠ .burstFirstByteSeen) ∨
    (s.rs = .burstHeaderSeen ∧ feed b s = (s.storeBuf0 b).goto .burstFirstByteSeen) ∨
    (s.rs = .burstFirstByteSeen ∧ feed b s = ((s.storeBuf1 b).goto .idle).emitReading) ∨
    (s.rs = .secondAckHeaderSeen ∧ b = Config.ackB ∧ feed b s = (s.goto .idle).emit .ack) := by
  cases h : s.rs with
  | idle =>
    rw [feed_idle h]
    split
    · exact .inl ⟨_, rfl, by simp, by simp⟩
    · split <;> exact .inl ⟨_, rfl, by simp, by simp⟩
  | firstAckHeaderSeen =>
    rw [feed_firstAck h]
    split <;> exact .inl ⟨_, rfl, by simp, by simp⟩
  | secondAckHeaderSeen =>
    rw [feed_secondAck h]
    split
    · rename_i hb
      exact .inr (.inr (.inr ⟨rfl, hb, rfl⟩))
    · exact .inl ⟨_, rfl, by simp, by simp⟩
  | burstHeaderSeen => exact .inr (.inl ⟨rfl, feed_burstHeader h⟩)
  | burstFirstByteSeen => exact .inr (.inr (.inl ⟨rfl, feed_burstFirst h⟩))

/-- The frame of a step of the RX block: what is no register and no event output of it. -/
theorem feed_frame (b : Byte) (s : State) :
    (feed b s).env = s.env ∧ (feed b s).inputs = s.inputs ∧ (feed b s).returned = s.returned ∧
      (feed b s).delivered = s.delivered ∧ (feed b s).draws = s.draws := by
  obtain ⟨r, h, -, -⟩ | ⟨-, h⟩ | ⟨-, h⟩ | ⟨-, -, h⟩ := feed_cases b s <;> simp [h]

@[simp] theorem feed_env (b : Byte) (s : State) : (feed b s).env = s.env := (feed_frame b s).1
@[simp] theorem feed_inputs (b : Byte) (s : State) : (feed b s).inputs = s.inputs := (feed_frame b s).2.1
@[simp] theorem feed_returned (b : Byte) (s : State) : (feed b s).returned = s.returned := (feed_frame b s).2.2.1
@[simp] theorem feed_delivered (b : Byte) (s : State) : (feed b s).delivered = s.delivered := (feed_frame b s).2.2.2.1
@[simp] theorem feed_draws (b : Byte) (s : State) : (feed b s).draws = s.draws := (feed_frame b s).2.2.2.2

@[simp] theorem feedAll_nil (s : State) : feedAll [] s = s := rfl
@[simp] theorem feedAll_cons (b : Byte) (bs : List Byte) (s : State) : feedAll (b :: bs) s = feedAll bs (feed b s) := rfl

theorem feedAll_append (bs cs : List Byte) (s : State) : feedAll (bs ++ cs) s = feedAll cs (feedAll bs s) := by
  induction bs generalizing s with
  | nil => rfl
  | cons b bs ih => exact ih _

@[simp] theorem feedAll_env (bs : List Byte) (s : State) : (feedAll bs s).env = s.env := by
  induction bs generalizing s with
  | nil => rfl
  | cons b bs ih => simp [ih]

@[simp] theorem feedAll_inputs (bs : List Byte) (s : State) : (feedAll bs s).inputs = s.inputs := by
  induction bs generalizing s with
  | nil => rfl
  | cons b bs ih => simp [ih]

@[simp] theorem feedAll_returned (bs : List Byte) (s : State) : (feedAll bs s).returned = s.returned := by
  induction bs generalizing s with
  | nil => rfl
  | cons b bs ih => simp [ih]

@[simp] theorem feedAll_delivered (bs : List Byte) (s : State) : (feedAll bs s).delivered = s.delivered := by
  induction bs generalizing s with
  | nil => rfl
  | cons b bs ih => simp [ih]

/-- A row of the transition table always completes. -/
theorem rxRow_next (applies : Bool) (b : Byte) (effect s : State) : ∃ t, rxRow applies b effect s = .next t := by
  cases applies
  · exact ⟨_, rfl⟩
  · exact ⟨_, rfl⟩

/-! ### The TX block -/

/-- A command returns its result, the error among them, and changes nothing else. -/
@[simp] theorem txOutcome_eq (r : TxResult) (s : State) : txOutcome r s = .next (s.returnTx r) := by
  cases r <;> rfl

theorem servoInRange_iff (p : Int) : servoInRange p = true ↔ -90 ≤ p ∧ p ≤ 90 := by
  unfold servoInRange Config.servoMin Config.servoMax
  exact decide_eq_true_iff

/-- The rounding in R142's integer form, `(17 * (position + 90) + 5) div 12`. -/
theorem servoRound_eq (p : Int) : servoRound p = (17 * (p + 90) + 5) / 12 := by
  simp only [servoRound, Config.servoScale, Config.servoSpan, Config.servoOffset]
  omega

theorem servoPos_eq (p : Int) : servoPos p = (17 * (p + 90) + 5) / 12 - 127 := by
  simp [servoPos, servoRound_eq, Config.servoCentre]

/-- The inverse of the servo mapping with its constants in sight. -/
theorem positionOfPayload_eq (pl : Byte) (q : Int) (h : q = ((pl.toNat + 127) % 256 : Nat)) :
    positionOfPayload pl =
      if servoInRange ((24 * q + 22) / 34 - 90) && servoPayload ((24 * q + 22) / 34 - 90) == pl
      then some ((24 * q + 22) / 34 - 90) else none := by
  have hc : (2 * q - 1) * Config.servoSpan / (2 * Config.servoScale) + 1 - Config.servoOffset =
      (24 * q + 22) / 34 - 90 := by
    simp only [Config.servoScale, Config.servoSpan, Config.servoOffset]
    omega
  subst h
  simp only [positionOfPayload]
  exact hc ▸ rfl

/-- The raw value with its constants in sight (41_rx_burst R114). -/
theorem rawValue_def (b0 b1 : Byte) :
    rawValue b0 b1 = ((((b0.setWidth 16) <<< 8) &&& 0x3FF#16) ||| (b1.setWidth 16)).setWidth 10 := rfl

theorem wf_servo_iff (which : Servo) (p : Int) : (Instr.servo which p).wf = true ↔ -90 ≤ p ∧ p ≤ 90 := decide_eq_true_iff

theorem wf_stepper_iff (n : Int) : (Instr.stepper n).wf = true ↔ -127 ≤ n ∧ n ≤ 127 := decide_eq_true_iff

theorem stepperCounts_ne_nil (steps : Int) : stepperCounts steps ≠ [] := by
  simp [stepperCounts]

/-- A clamped chunk lies within one frame's range. -/
theorem clampChunk_bounds (rem : Int) : -127 ≤ clampChunk rem ∧ clampChunk rem ≤ 127 := by
  unfold clampChunk Config.stepChunk
  split
  · simp
  · split
    · simp
    · omega

end Sys2Proof.Machine
end

