-- ==== Sys2Proof/Laws/PerInstr.lean ====
section
/-! SUPPORT. A statement about every instruction as syntax, one lemma a constructor: the word of a well-formed instruction lies
in the row of spec/opcode_table.json that the constructor stands for, and the state of its row is the table's. -/

namespace Sys2Proof.Laws.TableRow

open Sys2Proof Sys2Proof.Machine

def Statement (i : Instr) : Prop := i.wf = true → i.row.holds (encode i) = true ∧ i.row.state = i.rowState

theorem setled (mask : Byte) (on : Bool) : Statement (.setled mask on) := by
  intro _
  refine ⟨?_, rfl⟩
  cases on <;> revert mask <;> decide

theorem bursten : Statement .bursten := by
  intro _
  decide

theorem byte_row (which : Servo) (pl : Byte) :
    (Instr.row (.servo which 0)).holds (.tx4 (commandFrame (servoOpcode which) pl).word) = true := by
  cases which <;> revert pl <;> decide

theorem servo (which : Servo) (position : Int) : Statement (.servo which position) := by
  intro _
  exact ⟨byte_row which (servoPayload position), rfl⟩

theorem step_row (pl : Byte) : (Instr.row (.stepper 0)).holds (.tx4 (commandFrame Config.opStep pl).word) = true := by
  revert pl
  decide

theorem stepper (steps : Int) : Statement (.stepper steps) := by
  intro _
  exact ⟨step_row (tc8 steps), rfl⟩

theorem ackseq : Statement .ackseq := by
  intro _
  decide

/-- Under the mask of its row a burst word is its header. -/
theorem burst_masked (b0 b1 : Byte) : (Config.burstH ++ b0 ++ b1) &&& 0xFF0000#24 = 0x0C0000#24 := by
  apply BitVec.eq_of_getLsbD_eq
  intro i hi
  simp only [BitVec.getLsbD_and, BitVec.getLsbD_append, Config.burstH]
  by_cases h1 : i < 8
  · interval_cases i <;> simp
  · by_cases h2 : i < 16
    · interval_cases i <;> simp
    · interval_cases i <;> simp

theorem burst (b0 b1 : Byte) : Statement (.burst b0 b1) := by
  intro _
  refine ⟨?_, rfl⟩
  have h := congrArg BitVec.toNat (burst_masked b0 b1)
  rw [BitVec.toNat_and] at h
  simpa [OpcodeRow.holds, Instr.row, encode, Word.width, Word.toNat] using h

theorem rxIdleAckH1 : Statement .rxIdleAckH1 := by
  intro _
  decide

theorem rxIdleBurstH : Statement .rxIdleBurstH := by
  intro _
  decide

theorem rxIdleOther (b : Byte) : Statement (.rxIdleOther b) := by
  intro _
  simp [OpcodeRow.holds, Instr.row, encode, Word.width, Instr.rowState]

theorem rxA1AckH2 : Statement .rxA1AckH2 := by
  intro _
  decide

theorem rxA1Other (b : Byte) : Statement (.rxA1Other b) := by
  intro _
  simp [OpcodeRow.holds, Instr.row, encode, Word.width, Instr.rowState]

theorem rxA2Ack : Statement .rxA2Ack := by
  intro _
  decide

theorem rxA2Other (b : Byte) : Statement (.rxA2Other b) := by
  intro _
  simp [OpcodeRow.holds, Instr.row, encode, Word.width, Instr.rowState]

theorem rxB0Any (b : Byte) : Statement (.rxB0Any b) := by
  intro _
  simp [OpcodeRow.holds, Instr.row, encode, Word.width, Instr.rowState]

theorem rxB1Any (b : Byte) : Statement (.rxB1Any b) := by
  intro _
  simp [OpcodeRow.holds, Instr.row, encode, Word.width, Instr.rowState]

end Sys2Proof.Laws.TableRow
end

