-- ==== Sys2Proof/Laws/Step.lean ====
section
/-! SUPPORT. What a step can do, said once. -/

namespace Sys2Proof.Machine

open Sys2Proof

variable {s t : State}

theorem step_nil (h : s.inputs = []) : step s = .next s := by
  simp [step, runNext, h]

theorem step_cons {i : Input} {rest : List Input} (h : s.inputs = i :: rest) :
    step s = runInput i (s.advance rest) := by
  simp [step, runNext, h]

/-- A step with no input is idle; else it runs the head of the inputs. -/
theorem step_cases (h : step s = .next t) :
    (s.inputs = [] ∧ t = s) ∨ (∃ i rest, s.inputs = i :: rest ∧ runInput i (s.advance rest) = .next t) := by
  cases hi : s.inputs with
  | nil =>
    rw [step_nil hi] at h
    cases h
    exact .inl ⟨rfl, rfl⟩
  | cons i rest =>
    rw [step_cons hi] at h
    exact .inr ⟨i, rest, rfl, h⟩

/-- A run whose first step goes on. -/
theorem run_succ {k : Nat} (h : step s = .next t) : run (k + 1) s = run k t := by
  simp only [run, h]

@[simp] theorem run_zero (s : State) : run 0 s = .next s := rfl

/-- The run of claims is the host's run of the machine. -/
theorem run_eq_core (k : Nat) (s : State) : run k s = Host.Core.run Sys2Proof.core k s := by
  induction k generalizing s with
  | zero => rfl
  | succ k ih =>
    have hc : Sys2Proof.core.step s = step s := rfl
    simp only [run, Host.Core.run, hc]
    cases step s with
    | next t => exact ih t
    | fault r => rfl
    | refused r => rfl

theorem deliver_next {o : Host.Outcome State Fault Refusal} (h : deliver o = .next t) :
    ∃ u, o = .next u ∧ t = routeEvents Config.senderParams u := by
  cases o with
  | next u =>
    cases h
    exact ⟨u, rfl, rfl⟩
  | fault r => cases h
  | refused r => cases h

/-- Everything a fetched word can do: a stopped receive loop reads nothing; else the decoded instruction runs, and the events
of a received word are routed. -/
theorem runWord_cases {w : Word} (h : runWord w s = .next t) :
    (w.received = true ∧ s.env.ctrl = .stopped ∧ t = s) ∨
    (w.received = true ∧ s.env.ctrl ≠ .stopped ∧
      ∃ i u, decode s.rs w = .ok i ∧ exec i s = .next u ∧ t = routeEvents Config.senderParams u) ∨
    (w.received = false ∧ ∃ i, decode s.rs w = .ok i ∧ exec i s = .next t) := by
  unfold runWord at h
  split at h
  · rename_i hc
    cases h
    simp only [Bool.and_eq_true, beq_iff_eq] at hc
    exact .inl ⟨hc.1, hc.2, rfl⟩
  · rename_i hc
    split at h
    · cases h
    · rename_i i hd
      split at h
      · rename_i hr
        obtain ⟨u, hu, ht⟩ := deliver_next h
        refine .inr (.inl ⟨hr, ?_, i, u, hd, hu, ht⟩)
        intro hs
        exact hc (by simp [hr, hs])
      · rename_i hr
        exact .inr (.inr ⟨by simpa using hr, i, hd, h⟩)

/-- Everything an input can do. -/
theorem runInput_cases {i : Input} (h : runInput i s = .next t) :
    (∃ w, i = .word w ∧ runWord w s = .next t) ∨
    (∃ c, i = .apply c ∧ exec (Instr.ofCommand c) s = .next t) ∨
    (i = .noByte ∧ t = s) ∨
    (i = .reset ∧ t = rxReset s) ∨
    (∃ id, i = .construct id ∧ t = construct id s) ∨
    (∃ e, i = .env e ∧ t = { s with env := envStep Config.senderParams e s.env }) := by
  cases i with
  | word w => exact .inl ⟨w, rfl, h⟩
  | apply c => exact .inr (.inl ⟨c, rfl, h⟩)
  | noByte =>
    cases h
    exact .inr (.inr (.inl ⟨rfl, rfl⟩))
  | reset =>
    cases h
    exact .inr (.inr (.inr (.inl ⟨rfl, rfl⟩)))
  | construct id =>
    cases h
    exact .inr (.inr (.inr (.inr (.inl ⟨id, rfl, rfl⟩))))
  | env e =>
    cases h
    exact .inr (.inr (.inr (.inr (.inr ⟨e, rfl, rfl⟩))))

end Sys2Proof.Machine
end

