-- ==== Sys2Proof/Tests/Slice0.lean ====
section
/-! SUPPORT. Small tests, expected results from spec/ (95_test_vectors, the rows of 30_encoding), and for every statement
with hypotheses a concrete state that meets them. -/

namespace Sys2Proof.Tests

open Sys2Proof Sys2Proof.Machine

/-- The state after reset, the RX block moved to `r`, a buffer in sight. -/
def at' (r : ReceiveState) : State := { State.reset with rs := r, buf0 := 0x12#8, buf1 := 0x34#8 }

/-- The same with inputs to come. -/
def with' (r : ReceiveState) (is : List Input) : State := { at' r with inputs := is }

/-- An environment with every field in sight. -/
def env0 : Env :=
  { ctrl := .ready, handshakeSent := true, handshakeResult := some .ok, store := ⟨26, 0, 0, 0, 0, 0, false, false⟩,
    notices := [], subscriptions := [], pending := none, ackSlot := false, blocked := [], txStream := [], results := [],
    writeFails := false, transportId := 3, now := 7, draws := 0 }

/-- Parameters for tests, as in program P6 of 95_test_vectors. -/
def params : SenderParams := ⟨2, 3, false⟩

/-- A stepper frame (44_tx_stepper R152). -/
def sf (pl : Byte) : Frame := ⟨0x54#8, 0xFE#8, 0xF0#8, pl⟩

/-- A send that waits, two frames written of three (program P6). -/
def sending : PendingSend := ⟨sf 0x7F#8, [sf 0x2E#8], 0, .waiting 10, .caller (.turnStepper 300)⟩

/-- A caller that waits for the send section with its one frame. -/
def queued : BlockedCall := ⟨.turnStepper 1, [sf 0x01#8]⟩

/-! ### Well-formedness refuses -/

theorem test_wf_servo_91 : (Instr.servo .A 91).wf = false := by decide
theorem test_wf_servo_minus_91 : (Instr.servo .B (-91)).wf = false := by decide
theorem test_wf_step_128 : (Instr.stepper 128).wf = false := by decide
theorem test_wf_step_minus_128 : (Instr.stepper (-128)).wf = false := by decide
theorem test_wf_idle_other_55 : (Instr.rxIdleOther 0x55#8).wf = false := by decide
theorem test_wf_idle_other_0C : (Instr.rxIdleOther 0x0C#8).wf = false := by decide
theorem test_wf_a1_other_FF : (Instr.rxA1Other 0xFF#8).wf = false := by decide
theorem test_wf_a2_other_AA : (Instr.rxA2Other 0xAA#8).wf = false := by decide

/-! ### Decoding: words written out from 30_encoding, one a constructor, and words it refuses -/

theorem test_decode_setled : decodeTableWord 32 0x54FEC080 = some (.setled 0x80#8 false) := by decide
theorem test_decode_bursten : decodeTableWord 32 0x54FEA0FF = some .bursten := by decide
theorem test_decode_servo : decodeTableWord 32 0x54FED140 = some (.servo .B 45) := by decide
theorem test_decode_step : decodeTableWord 32 0x54FEF082 = some (.stepper (-126)) := by decide
theorem test_decode_ackseq : decodeTableWord 24 0x55FFAA = some .ackseq := by decide
theorem test_decode_burst : decodeTableWord 24 0x0C312C = some (.burst 0x31#8 0x2C#8) := by decide
theorem test_decode_idle_ackH1 : decodeTableWord 8 0x55 = some .rxIdleAckH1 := by decide
theorem test_decode_idle_burstH : decodeTableWord 8 0x0C = some .rxIdleBurstH := by decide
theorem test_decode_idle_other : decodeTableWord 8 0x00 = some (.rxIdleOther 0x00#8) := by decide
theorem test_decode_a1_ackH2 : decodeTableWord 8 0xFF = some .rxA1AckH2 := by decide
theorem test_decode_a1_other : decode .firstAckHeaderSeen (.rxb 0x0C#8) = .ok (.rxA1Other 0x0C#8) := rfl
theorem test_decode_a2_ack : decodeTableWord 8 0xAA = some .rxA2Ack := by decide
theorem test_decode_a2_other : decode .secondAckHeaderSeen (.rxb 0xFF#8) = .ok (.rxA2Other 0xFF#8) := rfl
theorem test_decode_b0 : decode .burstHeaderSeen (.rxb 0x0C#8) = .ok (.rxB0Any 0x0C#8) := rfl
theorem test_decode_b1 : decode .burstFirstByteSeen (.rxb 0x55#8) = .ok (.rxB1Any 0x55#8) := rfl

theorem test_refuse_prefix : decode .idle (.tx4 0x55FEC0FF#32) = .error .notCommandFrame := rfl
theorem test_refuse_opcode : decode .idle (.tx4 0x54FEC2FF#32) = .error .unknownOpcode := rfl
theorem test_refuse_burst_enable_payload : decode .idle (.tx4 0x54FEA000#32) = .error .badBurstEnablePayload := rfl
theorem test_refuse_step_80 : decode .idle (.tx4 0x54FEF080#32) = .error .stepperPayloadNeverProduced := rfl
/-- 43_tx_servo R146: no position has `pos' = 1`. -/
theorem test_refuse_servo_payload : decode .idle (.tx4 0x54FED001#32) = .error .servoPayloadNeverProduced := rfl
theorem test_refuse_sequence : decode .idle (.rx3 0x55FF00#24) = .error .notReceivedSequence := rfl

/-- The rows of one format and state in which a word could lie, one instruction a row. -/
def oneOfEach : List Instr :=
  [.setled 0#8 true, .bursten, .servo .A 0, .stepper 0, .ackseq, .burst 0#8 0#8, .rxIdleAckH1, .rxIdleBurstH] ++
  [.rxA1AckH2, .rxA2Ack]

/-- No word lies in two rows: two rows of a width and a state differ in a bit both masks look at. -/
theorem test_rows_disjoint :
    (oneOfEach.map Instr.row).Pairwise (fun r q =>
      r.width ≠ q.width ∨ r.state ≠ q.state ∨ r.matchBits &&& q.mask ≠ q.matchBits &&& r.mask) := by decide

/-! ### Meanings, from the vectors of 95_test_vectors section 2 -/

/-- V-L5, V-L6. -/
theorem test_setled : exec (.setled 0x01#8 true) (at' .idle) =
    .next { at' .idle with returned := [.frames [⟨0x54#8, 0xFE#8, 0xC1#8, 0x01#8⟩]] } := rfl
theorem test_setled_off : (encodeCommand (.setLed 0x80#8 false)) = .frames [⟨0x54#8, 0xFE#8, 0xC0#8, 0x80#8⟩] := by decide
/-- V-L9. -/
theorem test_bursten : encodeCommand .enableBurstMode = .frames [⟨0x54#8, 0xFE#8, 0xA0#8, 0xFF#8⟩] := by decide
/-- V-S1, V-S14 to V-S17 (ties), V-S4, V-S5 (the ends), V-S8, V-S9. -/
theorem test_servo_payloads :
    [0, 12, -84, 84, 60, -90, 90, 1, -1].map servoPayload =
      [0x00#8, 0x11#8, 0x89#8, 0x77#8, 0x55#8, 0x81#8, 0x80#8, 0x02#8, 0xFF#8] := by decide
/-- V-S2. -/
theorem test_servo_out_of_range : exec (.servo .A 91) (at' .burstHeaderSeen) =
    .next { at' .burstHeaderSeen with returned := [.error .outOfRange] } := rfl
/-- V-T9. -/
theorem test_stepper_128 : encodeCommand (.turnStepper (-128)) = .frames [sf 0x81#8, sf 0xFF#8] := by decide
/-- V-T1, V-T5, V-T12, V-T17. -/
theorem test_stepper_counts : [0, 127, 254, -300].map stepperCounts = [[0], [127], [127, 127], [-127, -127, -46]] := by decide
/-- V-A1. -/
theorem test_ackseq : exec .ackseq (at' .idle) = .next { at' .idle with emitted := [.ack] } := rfl
/-- V-A10: the ack sequence after a burst header is payload. -/
theorem test_ackseq_in_burst : exec .ackseq (at' .burstHeaderSeen) =
    .next { at' .idle with buf0 := 0x55#8, buf1 := 0xFF#8, emitted := [.reading ⟨.resistiveInput 1, 511#10⟩] } := rfl
/-- V-B1. -/
theorem test_burst : exec (.burst 0x05#8 0x12#8) (at' .idle) =
    .next { at' .idle with buf0 := 0x05#8, buf1 := 0x12#8, emitted := [.reading ⟨.slider, 274#10⟩] } := rfl
/-- V-B13, V-B16. -/
theorem test_burst_channels : readingOf 0x6B#8 0x80#8 = ⟨.resistiveInput 2, 896#10⟩ ∧
    readingOf 0xA8#8 0x7B#8 = ⟨.unmapped 10#4, 123#10⟩ := by decide
/-- V-A6, byte 2: the second `0x55` is consumed. -/
theorem test_a1_other : exec (.rxA1Other 0x55#8) (at' .firstAckHeaderSeen) = .next (at' .idle) := rfl
/-- V-A15, byte 3. -/
theorem test_a2_other : exec (.rxA2Other 0x0C#8) (at' .secondAckHeaderSeen) = .next (at' .idle) := rfl
/-- V-A16. -/
theorem test_idle_other : exec (.rxIdleOther 0xFF#8) (at' .idle) = .next (at' .idle) := rfl
theorem test_idle_ackH1 : exec .rxIdleAckH1 (at' .idle) = .next (at' .firstAckHeaderSeen) := rfl
theorem test_idle_burstH : exec .rxIdleBurstH (at' .idle) = .next (at' .burstHeaderSeen) := rfl
theorem test_a1_ackH2 : exec .rxA1AckH2 (at' .firstAckHeaderSeen) = .next (at' .secondAckHeaderSeen) := rfl
theorem test_a2_ack : exec .rxA2Ack (at' .secondAckHeaderSeen) = .next { at' .idle with emitted := [.ack] } := rfl
theorem test_b0 : exec (.rxB0Any 0x0C#8) (at' .burstHeaderSeen) =
    .next { at' .burstFirstByteSeen with buf0 := 0x0C#8 } := rfl
/-- `(0x12 mod 4) * 256 + 0x0C = 524`, channel 1 (program P3). -/
theorem test_b1 : exec (.rxB1Any 0x0C#8) (at' .burstFirstByteSeen) =
    .next { at' .idle with buf1 := 0x0C#8, emitted := [.reading ⟨.infrared, 524#10⟩] } := rfl

/-! ### The step -/

/-- A placed word runs as the first instruction after reset. -/
theorem test_placed_bursten : step (State.reset.withFetchWord 32 0x54FEA0FF) =
    .next { State.reset with returned := [.frames [⟨0x54#8, 0xFE#8, 0xA0#8, 0xFF#8⟩]] } := rfl
/-- V-E14: an `Ack` with no send outstanding is delivered and discarded. -/
theorem test_placed_ack : step (State.reset.withFetchWord 8 0xAA) = .next { State.reset with delivered := [.ack] } := rfl
/-- Each mnemonic's own word, operand bits zero, runs after reset and leaves its mark (decoded, then run). -/
theorem test_placed_runs :
    [(32, 0x54FEC000), (32, 0x54FED000), (32, 0x54FEF000), (24, 0x55FFAA), (24, 0x0C0000), (8, 0x55), (8, 0x0C), (8, 0xFF)].all
      (fun p => match step (State.reset.withFetchWord p.1 p.2) with | .next t => t.inputs.isEmpty | _ => false) = true := rfl

/-! ### The environment (V-E vectors and program P6, one event each) -/

/-- V-E1 to V-E4. -/
theorem test_percent : [0#10, 10#10, 11#10, 274#10, 511#10, 512#10, 1013#10, 1014#10, 1023#10].map (fun r => (percentOf r).val) =
    [0, 0, 1, 26, 49, 50, 98, 99, 99] := by decide
/-- V-E9, V-E10. -/
theorem test_store_same_percent : applyReading ⟨.slider, 275#10⟩ env0 = env0 := by decide
theorem test_store_notifies : (applyReading ⟨.slider, 300#10⟩ env0).notices = [⟨.slider, .percent 29⟩] := by decide
/-- R193: a subscription of the channel receives it, one of another channel does not. -/
theorem test_subscriptions :
    (applyReading ⟨.slider, 300#10⟩ ((env0.subscribe .slider).subscribe .sound)).subscriptions =
      [⟨.slider, [⟨.slider, .percent 29⟩]⟩, ⟨.sound, []⟩] := by decide
/-- Program P6, rows 1, 2 and 3. -/
theorem test_send_writes : (envStep params (.issue (.turnStepper 300)) env0).txStream = (sf 0x7F#8).bytes := by decide
theorem test_ack_writes_next : (senderTurn params (routeEvent params { env0 with pending := some sending } .ack)).txStream =
    (sf 0x2E#8).bytes := by decide
/-- V-E12: three writes, then `NotResponding` (program P6, rows 3 to 6). -/
theorem test_silence : (silentRounds params 3 { env0 with pending := some { sending with rest := [] } }).results =
    [⟨.turnStepper 300, .failed .notResponding⟩] := by decide
/-- V-E13. -/
theorem test_not_ready : (envStep params (.issue (.setServo .A 91)) { env0 with ctrl := .starting }).results =
    [⟨.setServo .A 91, .failed .notReady⟩] := by decide

/-- R214: a write that fails ends in `TransportClosed` and stops the controller. -/
theorem test_failed_write :
    (envStep params (.issue .enableBurstMode) { env0 with writeFails := true }).ctrl = .stopped ∧
    (envStep params (.issue .enableBurstMode) { env0 with writeFails := true }).results =
      [⟨.enableBurstMode, .failed .transportClosed⟩] := by decide
/-- R186, R193: a controller constructed after the one before it stopped is `Starting` on its own transport. -/
theorem test_construct : (construct 5 { at' .burstHeaderSeen with env := { env0 with ctrl := .stopped } }).rs = .idle ∧
    (construct 5 { at' .burstHeaderSeen with env := { env0 with ctrl := .stopped } }).env.openTransport = some 5 := ⟨rfl, rfl⟩
/-- Program P4: the frames of `TURN 300` at the ports, the last one marked. -/
theorem test_tx_ports : txPorts (encodeCommand (.turnStepper 300)) =
    ⟨false, [(0x54FEF07F#32, false), (0x54FEF07F#32, false), (0x54FEF02E#32, true)]⟩ := by decide
/-- V-B14 at the ports: channel code 7, raw 1023. -/
theorem test_rx_ports : rxPorts .burstFirstByteSeen 0x7F#8 true 0xFF#8 = ⟨false, true, 7#4, 1023#10⟩ := by decide

/-! ### Witnesses: concrete states that meet the hypotheses of each statement -/

theorem witness_FirstAckHeader :
    (at' .idle).rs = .idle ∧ (at' .firstAckHeaderSeen).rs = .firstAckHeaderSeen ∧
    (at' .secondAckHeaderSeen).rs = .secondAckHeaderSeen ∧ (at' .burstHeaderSeen).rs = .burstHeaderSeen ∧
    (at' .burstFirstByteSeen).rs = .burstFirstByteSeen := by decide
theorem witness_SecondAckHeader : (at' .firstAckHeaderSeen).rs = .firstAckHeaderSeen ∧ (at' .idle).rs = .idle ∧
    rxByte 0xFF#8 (at' .firstAckHeaderSeen) = .next (at' .secondAckHeaderSeen) ∧
    (at' .secondAckHeaderSeen).rs = .secondAckHeaderSeen ∧
    rxByte 0x55#8 (at' .idle) = .next (at' .firstAckHeaderSeen) := ⟨rfl, rfl, rfl, rfl, rfl⟩
theorem witness_MismatchAfterFirstHeader :
    (at' .firstAckHeaderSeen).rs = .firstAckHeaderSeen ∧ 0x00#8 ≠ 0xFF#8 ∧ 0xFE#8 ≠ 0xFF#8 := by decide
theorem witness_MismatchAfterSecondHeader :
    (at' .secondAckHeaderSeen).rs = .secondAckHeaderSeen ∧ 0xFF#8 ≠ 0xAA#8 ∧ 0xA9#8 ≠ 0xAA#8 := by decide
theorem witness_NoiseIgnoredInIdle : (at' .idle).rs = .idle ∧ 0xFF#8 ≠ 0x55#8 ∧ 0xFF#8 ≠ 0x0C#8 ∧
    0x56#8 ≠ 0x55#8 ∧ 0x0B#8 ≠ 0x0C#8 := by decide
theorem witness_BurstHeader :
    (at' .idle).rs = .idle ∧ (at' .secondAckHeaderSeen).rs = .secondAckHeaderSeen ∧
    (at' .firstAckHeaderSeen).rs = .firstAckHeaderSeen ∧ (at' .burstHeaderSeen).rs = .burstHeaderSeen ∧
    (at' .burstFirstByteSeen).rs = .burstFirstByteSeen := by decide
theorem witness_FirstPayloadByteStored : (at' .burstHeaderSeen).rs = .burstHeaderSeen := rfl
theorem witness_RowsRefineTheListing : rxBytes (.burst 0x05#8 0x12#8) = some [0x0C#8, 0x05#8, 0x12#8] := rfl
theorem witness_MismatchNotReexamined : (at' .firstAckHeaderSeen).rs = .firstAckHeaderSeen ∧ 0x55#8 ≠ 0xFF#8 ∧
    (at' .secondAckHeaderSeen).rs = .secondAckHeaderSeen ∧ 0xFF#8 ≠ 0xAA#8 ∧ (at' .idle).rs = .idle := by decide
theorem witness_InsertedByteInAckSequence : (at' .idle).rs = .idle ∧ 0x55#8 ≠ 0xFF#8 ∧ 0xFF#8 ≠ 0xAA#8 ∧
    0xFF#8 ≠ 0x55#8 ∧ 0xFF#8 ≠ 0x0C#8 := by decide
theorem witness_AckExactlyOnAckSequence : (at' .secondAckHeaderSeen).rs = .secondAckHeaderSeen ∧
    rxByte 0xAA#8 (at' .secondAckHeaderSeen) = .next { at' .idle with emitted := [] ++ [.ack] } ∧ (at' .idle).rs = .idle ∧
    (feedAll ([0x00#8, 0x55#8, 0xFF#8] ++ [0xAA#8]) (at' .idle)).emitted =
      (feedAll [0x00#8, 0x55#8, 0xFF#8] (at' .idle)).emitted ++ [.ack] ∧
    (feedAll [0x00#8] (at' .idle)).rs = .idle := ⟨rfl, rfl, rfl, rfl, rfl⟩
theorem witness_ReadingExactlyOnBurstFrame : (at' .burstFirstByteSeen).rs = .burstFirstByteSeen ∧
    rxByte 0x0C#8 (at' .burstFirstByteSeen) =
      .next { at' .idle with buf1 := 0x0C#8, emitted := [] ++ [.reading ⟨.infrared, 524#10⟩] } ∧ (at' .idle).rs = .idle ∧
    (feedAll ([0x0C#8, 0x0C#8] ++ [0x0C#8]) (at' .idle)).emitted =
      (feedAll [0x0C#8, 0x0C#8] (at' .idle)).emitted ++ [.reading (readingOf 0x0C#8 0x0C#8)] := ⟨rfl, rfl, rfl, rfl⟩
theorem witness_AckSequenceFromIdle : (at' .idle).rs = .idle := rfl
theorem witness_BurstFrameFromIdle : (at' .idle).rs = .idle := rfl
theorem witness_RawValueOfPayload : rawValue 0x03#8 0xFF#8 = rawValue 0x0F#8 0xFF#8 := by decide
theorem witness_ChannelOfPayload : (0x0F#8).toNat / 16 = 0 ∧ (0x10#8).toNat / 16 = 1 ∧ (0x2F#8).toNat / 16 = 2 ∧
    (0x30#8).toNat / 16 = 3 ∧ (0x40#8).toNat / 16 = (0 : Fin 4).val + 4 ∧ (0x7F#8).toNat / 16 = (3 : Fin 4).val + 4 ∧
    8 ≤ (0x80#8).toNat / 16 := by decide
theorem witness_IgnoredPayloadBits : 0x05#8 ^^^ 0x01#8 = 0x04#8 ∧ 0x05#8 ^^^ 0x0D#8 = 0x08#8 ∧ 0x05#8 ^^^ 0x09#8 = 0x0C#8 ∧
    (0x70#8).toNat / 16 = (0x7F#8).toNat / 16 ∧ (0x03#8).toNat % 4 = (0xFF#8).toNat % 4 := by decide
theorem witness_OldBufferNeverObserved :
    (at' .burstHeaderSeen).rs = ({ at' .burstHeaderSeen with buf0 := 0xFF#8, buf1 := 0xFF#8 } : State).rs ∧
    (at' .burstHeaderSeen).rs ≠ .burstFirstByteSeen ∧ (at' .idle).rs = .idle := by decide
theorem witness_NoAckFromBurstFramesAlone : DecodedEvent.ack ∉ (at' .burstFirstByteSeen).emitted ∧
    (at' .burstFirstByteSeen).rs ≠ .firstAckHeaderSeen ∧ (at' .burstFirstByteSeen).rs ≠ .secondAckHeaderSeen ∧ 3 % 3 = 0 ∧
    DecodedEvent.ack ∈ (feedAll ((burstStream [(0xFF#8, 0xAA#8)]).drop 1) (at' .firstAckHeaderSeen)).emitted := by decide
theorem witness_SetServoFrame : (-90 : Int) ≤ -90 ∧ (-90 : Int) ≤ 90 ∧ (-90 : Int) ≤ 90 ∧ (90 : Int) ≤ 90 := by decide
theorem witness_SetServoOutOfRange : ((-91 : Int) < -90 ∨ (90 : Int) < -91) ∧ ((91 : Int) < -90 ∨ (90 : Int) < 91) ∧
    (-90 : Int) ≤ -90 ∧ (90 : Int) ≤ 90 := by decide
theorem witness_OutOfRangeExactly : encodeCommand (.setServo .B (-91)) = .error .outOfRange := by decide
theorem witness_ServoPayloadsDistinct : (-90 : Int) ≤ -90 ∧ (-90 : Int) < 90 ∧ (90 : Int) ≤ 90 ∧
    positionOfPayload 0x80#8 = some 90 ∧ positionOfPayload 0x01#8 = none := by decide
/-- The signs and the middle counts of `TurnStepper`, at its corners. -/
theorem witness_TurnStepperFrames : stepperCounts (-128) = [-127, -1] ∧ stepperCounts 0 = [0] ∧
    (-127 : Int) ∈ (stepperCounts (-128)).dropLast := by decide
theorem witness_EveryFrameWellShaped : encodeCommand (.turnStepper 128) = .frames [sf 0x7F#8, sf 0x01#8] ∧
    sf 0x01#8 ∈ [sf 0x7F#8, sf 0x01#8] := by decide
theorem witness_RxAndTxCommute : rxBytes .ackseq = some [0x55#8, 0xFF#8, 0xAA#8] ∧
    Instr.stepper 300 = Instr.ofCommand (.turnStepper 300) := ⟨rfl, rfl⟩
theorem witness_DecodedFramesAreTheProducedOnes : decode .idle (.tx4 0x54FED181#32) = .ok (.servo .B (-90)) := rfl
theorem witness_DecodeOfEncode : (Instr.rxA1Other 0x55#8).wf = true ∧
    (∀ r, (Instr.rxA1Other 0x55#8).rowState = some r → ReceiveState.firstAckHeaderSeen = r) ∧ (Instr.servo .B (-90)).wf = true ∧
    (Instr.stepper (-127)).wf = true := ⟨by decide, fun r h => by cases h; rfl, by decide, by decide⟩
theorem witness_EncodeOfDecode : decode .idle (.tx4 0x54FED080#32) = .ok (.servo .A 90) ∧
    (∀ r, (Instr.rxB0Any 0x00#8).rowState = some r → r = .burstHeaderSeen) := ⟨rfl, fun r h => by cases h; rfl⟩
theorem witness_ParserAcceptsWellFormedFrames : parseFrame ⟨0x54#8, 0xFE#8, 0xF0#8, 0x80#8⟩ = .ok (.stepper 0x80#8) := rfl
theorem witness_StepRunsTheDecodedWord :
    (with' .idle [.word (.tx4 0x54FEA0FF#32)]).inputs = .word (.tx4 0x54FEA0FF#32) :: [] ∧
    decode (with' .idle []).rs (.tx4 0x54FEA0FF#32) = .ok .bursten ∧ (Word.tx4 0x54FEA0FF#32).received = false ∧
    decode (with' .idle []).rs (.rxb 0x55#8) = .ok .rxIdleAckH1 ∧ (Word.rxb 0x55#8).received = true ∧
    (with' .idle [.word (.rxb 0x55#8)]).env.ctrl ≠ .stopped ∧
    ({ env0 with ctrl := .stopped } : Env).ctrl = .stopped ∧
    (with' .idle [.apply (.turnStepper 300)]).inputs = .apply (.turnStepper 300) :: [] ∧
    (with' .idle [.env .tick, .noByte]).inputs = .env .tick :: [.noByte] ∧
    (with' .idle [.noByte]).inputs = .noByte :: [] ∧ (at' .idle).inputs = [] := by
  refine ⟨rfl, rfl, rfl, rfl, rfl, ?_, rfl, rfl, rfl, rfl, rfl⟩
  simp [with', at', State.reset, Env.reset]
theorem witness_PlacedWordRunsNext : tableWord 8 0xAA = some (.rxb 0xAA#8) ∧
    decode (tableState (.rxb 0xAA#8)) (.rxb 0xAA#8) = .ok .rxA2Ack ∧ (Word.rxb 0xAA#8).received = true ∧
    tableWord 32 0x54FED080 = some (.tx4 0x54FED080#32) ∧
    decode (tableState (.tx4 0x54FED080#32)) (.tx4 0x54FED080#32) = .ok (.servo .A 90) ∧
    (Word.tx4 0x54FED080#32).received = false := ⟨rfl, rfl, rfl, rfl, rfl, rfl⟩
theorem witness_SequenceIsThreeBytes : decodeRx3 (0x0C#8 ++ 0x05#8 ++ 0x12#8) = .ok (.burst 0x05#8 0x12#8) ∧
    env0.ctrl ≠ .stopped := ⟨rfl, by decide⟩
theorem witness_SilenceKeepsTheFrame :
    (∀ i ∈ [Input.noByte, .env .tick, .noByte], i = .noByte ∨ i = .env .tick) ∧
    (with' .secondAckHeaderSeen [.noByte, .env .tick, .noByte, .word (.rxb 0xAA#8)]).inputs =
      [.noByte, .env .tick, .noByte] ++ [.word (.rxb 0xAA#8)] ∧ [Input.noByte].all (· == .noByte) = true := by decide
theorem witness_OnlyReceivedBytesMoveTheRxBlock :
    step (with' .burstFirstByteSeen [.apply .enableBurstMode]) =
      .next { at' .burstFirstByteSeen with returned := [.frames [⟨0x54#8, 0xFE#8, 0xA0#8, 0xFF#8⟩]] } ∧
    (∀ w rest, (with' .burstFirstByteSeen [.apply .enableBurstMode]).inputs = .word w :: rest → w.received = false) ∧
    (∀ rest, (with' .burstFirstByteSeen [.apply .enableBurstMode]).inputs ≠ .reset :: rest) ∧
    (∀ id rest, (with' .burstFirstByteSeen [.apply .enableBurstMode]).inputs ≠ .construct id :: rest) :=
  ⟨rfl, fun _ _ h => by simp [with'] at h, fun _ h => by simp [with'] at h, fun _ _ h => by simp [with'] at h⟩
theorem witness_NoLoopBack : step (with' .idle [.word (.rxb 0x55#8), .noByte]) =
    .next { at' .firstAckHeaderSeen with inputs := [.noByte] } := rfl
theorem witness_AtMostOneEventPerStep : (with' .secondAckHeaderSeen [.word (.rxb 0xAA#8)]).emitted = [] ∧
    step (with' .secondAckHeaderSeen [.word (.rxb 0xAA#8)]) = .next { at' .idle with delivered := [] ++ [.ack] } ∧
    ∃ t, step (with' .burstFirstByteSeen [.word (.rxb 0x0C#8)]) = .next t ∧
      t.delivered = [] ++ [.reading ⟨.infrared, 524#10⟩] := ⟨rfl, rfl, _, rfl, rfl⟩
theorem witness_ResetOfTheRxBlock : (with' .burstFirstByteSeen [.reset]).inputs = .reset :: [] ∧
    (with' .burstFirstByteSeen [.construct 5]).inputs = .construct 5 :: [] ∧
    ({ env0 with ctrl := .stopped } : Env).ctrl = .stopped ∧ env0.pending = none ∧ env0.blocked = [] ∧
    ¬(env0.ctrl = .stopped ∧ env0.pending = none ∧ env0.blocked = []) ∧
    ¬(Lifecycle.stopped = .stopped ∧ some sending = none ∧ env0.blocked = []) ∧
    ¬(Lifecycle.stopped = .stopped ∧ env0.pending = none ∧ [queued] = []) :=
  ⟨rfl, rfl, rfl, rfl, rfl, by decide, by decide, by decide⟩
theorem witness_ReadingConversion : (1013#10).toNat ≤ (1023#10).toNat := by decide
theorem witness_StoreNotifiesOnChangeOnly :
    (∃ c, (⟨.unmapped 10#4, 123#10⟩ : SensorReading).channel = .unmapped c) ∧
    convert ⟨.slider, 1023#10⟩ = some (.percent 99) ∧ convert ⟨.button, 0#10⟩ = some (.flag true) ∧
    SensorChannel.sound ≠ (⟨.slider, 1023#10⟩ : SensorReading).channel := ⟨⟨10#4, rfl⟩, rfl, rfl, by decide⟩
theorem witness_SilentSendWritesNPlusOneTimes :
    env0.ctrl ≠ .stopped ∧ env0.writeFails = false ∧ env0.pending = none ∧ env0.ackSlot = false ∧
    ({ env0 with pending := some sending } : Env).pending = some sending ∧ sending.phase = .waiting 10 ∧ env0.now + 1 < 10 ∧
    ({ sending with phase := .waiting 8 } : PendingSend).phase = .waiting 8 ∧ 8 ≤ env0.now + 1 := by decide
/-- A handshake that waits, or whose window has elapsed. -/
def shake (ph : WaitPhase) : PendingSend := ⟨⟨0x54#8, 0xFE#8, 0xA0#8, 0xFF#8⟩, [], 2, ph, .handshake⟩

theorem witness_AnyAckAdvancesTheSend :
    ({ env0 with pending := some sending } : Env).pending = some sending ∧ sending.phase = .waiting 10 ∧
    sending.rest = sf 0x2E#8 :: [] ∧ env0.ctrl ≠ .stopped ∧ env0.writeFails = false ∧
    ({ sending with rest := [] } : PendingSend).rest = [] ∧ sending.source = .caller (.turnStepper 300) ∧
    (shake (.waiting 10)).phase = .waiting 10 ∧ (shake (.waiting 10)).source = .handshake ∧ (shake (.waiting 10)).rest = [] ∧
    ({ env0 with ctrl := .starting } : Env).ctrl = .starting ∧
    ({ sending with phase := .lapsed, retries := 1 } : PendingSend).phase = .lapsed ∧ 1 < params.maxRetries ∧
    params.ackSlotSticky = false ∧ (⟨2, 3, true⟩ : SenderParams).ackSlotSticky = true := by decide
theorem witness_HandshakeSendsBurstEnable :
    ({ env0 with ctrl := .starting, handshakeSent := false } : Env).ctrl = .starting ∧
    ({ env0 with ctrl := .starting, handshakeSent := false } : Env).handshakeSent = false ∧ env0.pending = none ∧
    env0.writeFails = false ∧ (shake .lapsed).source = .handshake ∧ (shake .lapsed).phase = .lapsed ∧
    params.maxRetries ≤ (shake .lapsed).retries ∧ ({ env0 with writeFails := true } : Env).writeFails = true ∧
    env0.ctrl ≠ .starting ∧ env0.handshakeSent = true ∧
    ({ env0 with pending := some sending } : Env).pending ≠ none := by decide
theorem witness_FailedWriteStopsTheController :
    ({ env0 with pending := some sending, writeFails := true } : Env).pending = some sending ∧
    ({ env0 with writeFails := true } : Env).writeFails = true ∧ ({ env0 with ctrl := .stopped } : Env).ctrl = .stopped ∧
    ({ sending with phase := .lapsed, retries := 1 } : PendingSend).phase = .lapsed ∧ 1 < params.maxRetries ∧
    sending.phase = .waiting 10 ∧ ({ env0 with ackSlot := true } : Env).ackSlot = true ∧ sending.rest ≠ [] ∧
    sending.source = .caller (.turnStepper 300) ∧ (shake .lapsed).source = .handshake := by decide
theorem witness_PortsShowTheBlocks :
    (TxInPorts.mk .turnStepper 0#8 false false 0#8 0x80000000#32).command = .turnStepper (-2147483648) ∧
    encodeCommand (.turnStepper 128) = .frames [sf 0x7F#8, sf 0x01#8] ∧
    (rxPorts .burstFirstByteSeen 0x7F#8 false 0xFF#8).evReading = false ∧
    (rxPorts .burstHeaderSeen 0x7F#8 true 0xFF#8).evReading = false := by decide
theorem witness_UnexpectedAckDiscarded :
    (with' .secondAckHeaderSeen [.word (.rxb 0xAA#8)]).inputs = .word (.rxb 0xAA#8) :: [] ∧
    (with' .secondAckHeaderSeen [.word (.rxb 0xAA#8)]).rs = .secondAckHeaderSeen ∧
    (with' .secondAckHeaderSeen [.word (.rxb 0xAA#8)]).emitted = [] ∧
    (with' .secondAckHeaderSeen [.word (.rxb 0xAA#8)]).env.pending = none ∧
    (with' .secondAckHeaderSeen [.word (.rxb 0xAA#8)]).env.ctrl ≠ .stopped :=
  ⟨rfl, rfl, rfl, rfl, by simp [with', at', State.reset, Env.reset]⟩
theorem witness_NotReadyBeforeHandshake : ({ env0 with ctrl := .starting } : Env).ctrl = .starting := rfl
theorem witness_ReadyControllerSends : env0.ctrl = .ready ∧ encodeCommand (.setServo .A 91) = .error .outOfRange ∧
    encodeCommand (.turnStepper 300) = .frames (sf 0x7F#8 :: [sf 0x7F#8, sf 0x2E#8]) ∧ env0.pending = none ∧
    env0.writeFails = false ∧ ({ env0 with writeFails := true } : Env).writeFails = true ∧
    ({ env0 with pending := some sending } : Env).pending = some sending ∧
    ({ env0 with pending := some sending } : Env).pending ≠ none ∧ env0.blocked[0]? = none ∧
    ({ env0 with blocked := [queued] } : Env).blocked[0]? = some queued ∧ queued.frames = sf 0x01#8 :: [] ∧
    env0.ctrl ≠ .stopped ∧ ({ env0 with ctrl := .stopped } : Env).ctrl = .stopped := by decide

/-- The controller in `Starting`, its handshake acknowledged, the sender about to look. -/
def shaking : State :=
  { with' .idle [.env .sender] with
    env := { env0 with
      ctrl := .starting, handshakeResult := none, ackSlot := true
      pending := some ⟨⟨0x54#8, 0xFE#8, 0xA0#8, 0xFF#8⟩, [], 0, .waiting 10, .handshake⟩ } }

theorem witness_LifecycleOnlyMovesForward :
    step shaking = .next { at' .idle with env := env0 } ∧ env0.ctrl = .ready ∧ shaking.env.ctrl ≠ .ready ∧
    step (with' .idle [.noByte]) = .next (at' .idle) ∧ (at' .idle).env.ctrl = .starting ∧
    step { with' .idle [.noByte] with env := { env0 with ctrl := .stopped } } =
      .next { at' .idle with env := { env0 with ctrl := .stopped } } :=
  ⟨rfl, rfl, by decide, rfl, rfl, rfl⟩
theorem witness_StoppedControllerIsInert : env0.ctrl ≠ .stopped ∧ env0.pending = none ∧
    ({ env0 with pending := some sending } : Env).pending = some sending ∧ sending.source = .caller (.turnStepper 300) ∧
    ({ env0 with pending := some (shake .lapsed) } : Env).pending = some (shake .lapsed) ∧ (shake .lapsed).source = .handshake ∧
    (∀ id rest, (with' .idle [.env (.issue .enableBurstMode)]).inputs ≠ .construct id :: rest) ∧
    ∃ t, step { with' .idle [.env (.issue .enableBurstMode)] with env := { env0 with ctrl := .stopped } } = .next t :=
  ⟨by decide, rfl, rfl, rfl, rfl, rfl, fun _ _ h => by simp [with'] at h, _, rfl⟩
theorem witness_SendSectionIsExclusive :
    step { with' .idle [.env .tick] with env := { env0 with pending := some sending } } =
      .next { at' .idle with env := { env0 with now := 8, pending := some sending } } := rfl

theorem wellShaped_handshake : wellShaped ⟨0x54#8, 0xFE#8, 0xA0#8, 0xFF#8⟩ := ⟨rfl, rfl, .inl ⟨rfl, rfl⟩⟩

theorem witness_StepKeepsInvariant :
    Inv { shaking with env := { shaking.env with txStream := [0x54#8, 0xFE#8, 0xA0#8, 0xFF#8] } } ∧
    ∃ t, step { shaking with env := { shaking.env with txStream := [0x54#8, 0xFE#8, 0xA0#8, 0xFF#8] } } = .next t := by
  refine ⟨⟨rfl, ?_, ?_, ?_⟩, _, rfl⟩
  · intro r h
    simp [shaking, with', at', State.reset] at h
  · intro r h
    simp [shaking, with', at', State.reset] at h
  · refine ⟨⟨[⟨0x54#8, 0xFE#8, 0xA0#8, 0xFF#8⟩], ?_, rfl⟩, ?_, ?_, ?_, ?_, ?_, ?_, ?_⟩
    · intro f hf
      rw [List.mem_singleton] at hf
      exact hf ▸ wellShaped_handshake
    · intro p hp
      cases hp
      refine ⟨wellShaped_handshake, ?_, Nat.zero_le _, ?_, ?_, ?_⟩ <;> simp [shaking, env0]
    · intro h
      cases h
    · intro c h
      cases h
    · intro _
      rfl
    · intro _
      rfl
    · intro n h
      cases h
    · intro s h
      cases h

end Sys2Proof.Tests
end

section
/-! PROOFS, family 00_scope. The TX block neither reads nor moves the RX block, and no event of the environment reaches its
registers: what is left to move them is received words, a reset and a construction. -/

namespace Sys2Proof.Machine

open Sys2Proof

variable {s t : State}

/-! ### Commands -/

/-- Applying the TX block to a command returns its encoding and changes nothing else (42_tx_led_burst R130). -/
@[simp] theorem exec_ofCommand (c : Command) (s : State) :
    exec (Instr.ofCommand c) s = .next (s.returnTx (encodeCommand c)) := by
  have hexec : exec (Instr.ofCommand c) s = txOutcome (encodeCommand c) s := by cases c <;> rfl
  rw [hexec, txOutcome_eq]

theorem servoInstr_ok {which : Servo} {position : Option Int} {i : Instr} (h : servoInstr which position = .ok i) :
    ∃ p, position = some p ∧ i = .servo which p := by
  cases position with
  | none => cases h
  | some p =>
    cases h
    exact ⟨p, rfl, rfl⟩

/-- A parsed command frame stands for a command, never for a row of the RX block. -/
theorem parsedFrame_instr_ofCommand {p : ParsedFrame} {i : Instr} (h : p.instr = .ok i) : ∃ c, i = Instr.ofCommand c := by
  cases p with
  | led on mask =>
    cases h
    exact ⟨.setLed mask on, rfl⟩
  | burstEnable =>
    cases h
    exact ⟨.enableBurstMode, rfl⟩
  | servo which pl =>
    obtain ⟨position, -, rfl⟩ := servoInstr_ok h
    exact ⟨.setServo which position, rfl⟩
  | stepper pl =>
    simp only [ParsedFrame.instr] at h
    split at h
    · cases h
    · cases h
      exact ⟨.turnStepper pl.toInt, rfl⟩

theorem decodeTx4_ofCommand {w : BitVec 32} {i : Instr} (h : decodeTx4 w = .ok i) : ∃ c, i = Instr.ofCommand c := by
  unfold decodeTx4 at h
  split at h
  · exact parsedFrame_instr_ofCommand h
  · cases h

/-- A word that is not received decodes to a command, whatever the state of the RX block. -/
theorem decode_ofCommand {rs : ReceiveState} {w : Word} {i : Instr} (hw : w.received = false) (h : decode rs w = .ok i) :
    ∃ c, i = Instr.ofCommand c := by
  cases w with
  | tx4 w => exact decodeTx4_ofCommand h
  | rx3 v => cases hw
  | rxb b => cases hw

/-- A command word that runs returns the encoding of one command and changes nothing else. -/
theorem runWord_of_not_received {w : Word} (hw : w.received = false) (h : runWord w s = .next t) :
    ∃ c, t = s.returnTx (encodeCommand c) := by
  obtain ⟨hr, -⟩ | ⟨hr, -⟩ | ⟨-, i, hd, hi⟩ := runWord_cases h
  · simp [hw] at hr
  · simp [hw] at hr
  · obtain ⟨c, rfl⟩ := decode_ofCommand hw hd
    rw [exec_ofCommand] at hi
    cases hi
    exact ⟨c, rfl⟩

/-! ### The obligation -/

/-- Settles O41: a step without input is idle; of the other inputs a command word and an applied command move `returned`,
silence nothing, and an event of the environment the environment, all off the RX block. -/
theorem onlyReceivedBytesMoveTheRxBlock : Obligations.OnlyReceivedBytesMoveTheRxBlock := by
  intro s t h hword hreset hconstruct
  obtain ⟨-, rfl⟩ | ⟨i, rest, hin, hrun⟩ := step_cases h
  · exact ⟨rfl, rfl, rfl, rfl, rfl⟩
  obtain ⟨w, rfl, hw⟩ | ⟨c, rfl, hc⟩ | ⟨-, rfl⟩ | ⟨rfl, -⟩ | ⟨id, rfl, -⟩ | ⟨e, -, rfl⟩ := runInput_cases hrun
  · obtain ⟨c, rfl⟩ := runWord_of_not_received (hword w rest hin) hw
    simp
  · rw [exec_ofCommand] at hc
    cases hc
    simp
  · simp
  · exact absurd hin (hreset rest)
  · exact absurd hin (hconstruct id rest)
  · simp

end Sys2Proof.Machine
end

section
/-! PROOFS, family 10_state. The rows of the transition table and the listing `feed` are one function, so every instruction
completes and a step stops at the decoder alone; a reset and a construction; the suggested ports as views of the two blocks. -/

namespace Sys2Proof.Machine

open Sys2Proof

variable {s : State}

/-! ### The rows and the listing -/

/-- A row whose effect is that of the listing wherever it applies feeds its byte, applied or not. -/
theorem rxRow_eq_feed {applies : Bool} {b : Byte} {effect : State} (h : applies = true → feed b s = effect) :
    rxRow applies b effect s = .next (feed b s) := by
  cases applies with
  | true => rw [h rfl]; rfl
  | false => rfl

/-- An instruction of the RX block feeds its bytes in every state, off its row too (40_rx_ack R90; log 5, log 18). -/
theorem exec_eq_feedAll {i : Instr} {bs : List Byte} (h : rxBytes i = some bs) : exec i s = .next (feedAll bs s) := by
  cases i with
  | setled mask on => cases h
  | bursten => cases h
  | servo which position => cases h
  | stepper steps => cases h
  | ackseq => cases h; rfl
  | burst b0 b1 => cases h; rfl
  | rxIdleAckH1 =>
    cases h
    refine rxRow_eq_feed fun hr => ?_
    rw [feed_idle (by simpa using hr), if_pos rfl]
  | rxIdleBurstH =>
    cases h
    refine rxRow_eq_feed fun hr => ?_
    rw [feed_idle (by simpa using hr), if_neg (by decide), if_pos rfl]
  | rxIdleOther b =>
    cases h
    refine rxRow_eq_feed fun hr => ?_
    obtain ⟨⟨hrs, h1⟩, h2⟩ : (s.rs = .idle ∧ b ≠ Config.ackH1) ∧ b ≠ Config.burstH := by simpa using hr
    rw [feed_idle hrs, if_neg h1, if_neg h2]
  | rxA1AckH2 =>
    cases h
    refine rxRow_eq_feed fun hr => ?_
    rw [feed_firstAck (by simpa using hr), if_pos rfl]
  | rxA1Other b =>
    cases h
    refine rxRow_eq_feed fun hr => ?_
    obtain ⟨hrs, hb⟩ : s.rs = .firstAckHeaderSeen ∧ b ≠ Config.ackH2 := by simpa using hr
    rw [feed_firstAck hrs, if_neg hb]
  | rxA2Ack =>
    cases h
    refine rxRow_eq_feed fun hr => ?_
    rw [feed_secondAck (by simpa using hr), if_pos rfl]
  | rxA2Other b =>
    cases h
    refine rxRow_eq_feed fun hr => ?_
    obtain ⟨hrs, hb⟩ : s.rs = .secondAckHeaderSeen ∧ b ≠ Config.ackB := by simpa using hr
    rw [feed_secondAck hrs, if_neg hb]
  | rxB0Any b =>
    cases h
    exact rxRow_eq_feed fun hr => feed_burstHeader (by simpa using hr)
  | rxB1Any b =>
    cases h
    exact rxRow_eq_feed fun hr => feed_burstFirst (by simpa using hr)

/-- The row that a state and a byte select stands for that byte (30_encoding R81). -/
@[simp] theorem rxBytes_decodeRxb (rs : ReceiveState) (b : Byte) : rxBytes (decodeRxb rs b) = some [b] := by
  cases rs with
  | idle =>
    by_cases h1 : b = Config.ackH1
    · subst h1; rfl
    by_cases h2 : b = Config.burstH
    · subst h2; rfl
    simp [decodeRxb, h1, h2, rxBytes]
  | firstAckHeaderSeen =>
    by_cases hb : b = Config.ackH2
    · subst hb; rfl
    · simp [decodeRxb, hb, rxBytes]
  | secondAckHeaderSeen =>
    by_cases hb : b = Config.ackB
    · subst hb; rfl
    · simp [decodeRxb, hb, rxBytes]
  | burstHeaderSeen => rfl
  | burstFirstByteSeen => rfl

/-- A byte run through the row it selects is a step of the listing. -/
theorem rxByte_eq_feed (b : Byte) (s : State) : rxByte b s = .next (feed b s) :=
  exec_eq_feedAll (rxBytes_decodeRxb s.rs b)

/-- A step of the RX block emits at most one event (10_state R28). -/
theorem feed_emitted_cases (b : Byte) (s : State) :
    (feed b s).emitted = s.emitted ∨ ∃ e, (feed b s).emitted = s.emitted ++ [e] := by
  obtain ⟨r, h, -, -⟩ | ⟨-, h⟩ | ⟨-, h⟩ | ⟨-, -, h⟩ := feed_cases b s
  · exact .inl (by rw [h]; rfl)
  · exact .inl (by rw [h]; rfl)
  · exact .inr ⟨_, by rw [h]; rfl⟩
  · exact .inr ⟨_, by rw [h]; rfl⟩

/-- The frame of `feed` as one equality of states: its registers and its event are all that a step of the RX block moves. -/
theorem feed_eq_update (b : Byte) (s : State) :
    feed b s = { s with
      rs := (feed b s).rs, buf0 := (feed b s).buf0, buf1 := (feed b s).buf1, emitted := (feed b s).emitted } := by
  obtain ⟨r, h, -, -⟩ | ⟨-, h⟩ | ⟨-, h⟩ | ⟨-, -, h⟩ := feed_cases b s <;> rw [h] <;> rfl

/-- Settles O10: each row's effect is the listing's where the row applies, so the rows, applied or not, feed their bytes. -/
theorem rowsRefineTheListing : Obligations.RowsRefineTheListing :=
  ⟨fun _ _ _ h => exec_eq_feedAll h, fun b s => ⟨rxByte_eq_feed b s, feed_emitted_cases b s, feed_eq_update b s⟩⟩

/-! ### What stops a step -/

/-- Every instruction is one of the RX block or a command. -/
theorem rxBytes_or_ofCommand (i : Instr) : (∃ bs, rxBytes i = some bs) ∨ ∃ c, i = Instr.ofCommand c := by
  cases i with
  | setled mask on => exact .inr ⟨.setLed mask on, rfl⟩
  | bursten => exact .inr ⟨.enableBurstMode, rfl⟩
  | servo which position => exact .inr ⟨.setServo which position, rfl⟩
  | stepper steps => exact .inr ⟨.turnStepper steps, rfl⟩
  | _ => exact .inl ⟨_, rfl⟩

/-- Every instruction completes in every state (10_state R36, 60_exceptions R210). -/
theorem exec_next (i : Instr) (s : State) : ∃ t, exec i s = .next t := by
  obtain ⟨bs, h⟩ | ⟨c, rfl⟩ := rxBytes_or_ofCommand i
  · exact ⟨_, exec_eq_feedAll h⟩
  · exact ⟨_, exec_ofCommand c s⟩

/-- A word that decodes completes. -/
theorem runWord_next_of_decode {w : Word} {i : Instr} (h : decode s.rs w = .ok i) : ∃ t, runWord w s = .next t := by
  obtain ⟨t, ht⟩ := exec_next i s
  simp only [runWord, h, ht]
  split
  · exact ⟨_, rfl⟩
  · split
    · exact ⟨_, rfl⟩
    · exact ⟨_, rfl⟩

/-- A word that the decoder refuses stops the run by that name, or a stopped receive loop does not read it (log 7, log 17). -/
theorem runWord_of_decode_error {w : Word} {e : DecodeError} (h : decode s.rs w = .error e) :
    runWord w s = .next s ∨ runWord w s = .refused (.undecodable e) := by
  simp only [runWord, h]
  split
  · exact .inl rfl
  · exact .inr rfl

/-- A fetched word goes on, or the decoder refuses it and it is no byte. -/
theorem runWord_next_or_refused (w : Word) (s : State) :
    (∃ t, runWord w s = .next t) ∨
    ∃ e, (∀ b, w ≠ .rxb b) ∧ decode s.rs w = .error e ∧ runWord w s = .refused (.undecodable e) := by
  cases hd : decode s.rs w with
  | ok i => exact .inl (runWord_next_of_decode hd)
  | error e =>
    obtain h | h := runWord_of_decode_error hd
    · exact .inl ⟨s, h⟩
    · refine .inr ⟨e, ?_, rfl, h⟩
      rintro b rfl
      cases hd

/-- Settles O40: of the inputs only a word can stop a step, and a word that decodes completes. -/
theorem onlyUndecodableWordsStop : Obligations.OnlyUndecodableWordsStop := by
  intro s
  cases hin : s.inputs with
  | nil => exact .inl ⟨s, step_nil hin⟩
  | cons i rest =>
    rw [step_cons hin]
    cases i with
    | word w =>
      obtain h | ⟨e, hb, hd, h⟩ := runWord_next_or_refused w (s.advance rest)
      · exact .inl h
      · exact .inr ⟨w, rest, e, rfl, hb, hd, h⟩
    | apply c => exact .inl ⟨_, exec_ofCommand c _⟩
    | noByte => exact .inl ⟨_, rfl⟩
    | reset => exact .inl ⟨_, rfl⟩
    | construct id => exact .inl ⟨_, rfl⟩
    | env e => exact .inl ⟨_, rfl⟩

/-! ### Reset and construction -/

/-- A construction that may happen, once the earlier controller has stopped with no send and no caller left (log 26). -/
theorem construct_of_stopped {id : Nat} (hctrl : s.env.ctrl = .stopped) (hpending : s.env.pending = none)
    (hblocked : s.env.blocked = []) :
    construct id s = { rxReset s with
      env := { Env.reset with transportId := id, results := s.env.results, now := s.env.now, draws := s.env.draws } } :=
  if_pos ⟨hctrl, hpending, hblocked⟩

/-- Settles O45: both inputs are one operation each, and each answers the state that operation writes out. -/
theorem resetOfTheRxBlock : Obligations.ResetOfTheRxBlock := by
  refine ⟨rfl, rfl, rfl, ?_, ?_⟩
  · intro s rest hin
    exact ⟨_, _, _, step_cons hin⟩
  · intro s id rest hin
    have hstep : step s = .next (construct id (s.advance rest)) := step_cons hin
    rw [hstep]
    constructor
    · intro hctrl hpending hblocked
      rw [construct_of_stopped (s := s.advance rest) hctrl hpending hblocked]
      exact ⟨_, rfl, rfl, rfl, rfl, rfl, rfl, rfl, rfl, rfl, rfl, rfl, rfl⟩
    · intro hnot
      have hsame : construct id (s.advance rest) = s.advance rest := if_neg hnot
      rw [hsame]
      rfl

/-! ### The ports of the RX block -/

/-- Without `rx_valid` the ports show no event. -/
@[simp] theorem rxPorts_invalid_events (rs : ReceiveState) (b0 b : Byte) : (rxPorts rs b0 false b).events = [] := rfl

/-- With `rx_valid` the ports show what the step on the byte emits (10_state R35). -/
theorem feed_emitted_eq_ports (b : Byte) (s : State) :
    (feed b s).emitted = s.emitted ++ (rxPorts s.rs s.buf0 true b).events := by
  cases h : s.rs with
  | idle =>
    have hfeed : (feed b s).emitted = s.emitted := by
      rw [feed_idle h]
      split
      · rfl
      · split <;> rfl
    simp [hfeed, rxPorts, RxPorts.events]
  | firstAckHeaderSeen =>
    have hfeed : (feed b s).emitted = s.emitted := by
      rw [feed_firstAck h]
      split <;> rfl
    simp [hfeed, rxPorts, RxPorts.events]
  | secondAckHeaderSeen =>
    rw [feed_secondAck h]
    by_cases hb : b = Config.ackB <;> simp [hb, rxPorts, RxPorts.events]
  | burstHeaderSeen =>
    rw [feed_burstHeader h]
    simp [rxPorts, RxPorts.events]
  | burstFirstByteSeen =>
    rw [feed_burstFirst h]
    simp [rxPorts, RxPorts.events, readingOf, channelOf]

/-- A clock with `rst` is the same clock without it, then a reset (log 25). -/
theorem rxClock_rst (v : Bool) (b : Byte) (s : State) : rxClock true v b s = rxReset (rxClock false v b s) := rfl

/-- In every clock the events at the ports are those it emits. -/
theorem rxClock_emitted (rst v : Bool) (b : Byte) (s : State) :
    (rxClock rst v b s).emitted = s.emitted ++ (rxPorts s.rs s.buf0 v b).events := by
  have hstep : (rxClock false v b s).emitted = s.emitted ++ (rxPorts s.rs s.buf0 v b).events := by
    cases v with
    | false => exact (List.append_nil _).symm
    | true => exact feed_emitted_eq_ports b s
  cases rst with
  | false => exact hstep
  | true => rw [rxClock_rst, rxReset_emitted, hstep]

/-- An `Ack` and a `Reading` stand in different states, so the ports never show both. -/
theorem rxPorts_not_both (rs : ReceiveState) (b0 b : Byte) (v : Bool) :
    ¬((rxPorts rs b0 v b).evAck = true ∧ (rxPorts rs b0 v b).evReading = true) := by
  simp only [rxPorts, Bool.and_eq_true, decide_eq_true_eq]
  rintro ⟨⟨⟨-, h2⟩, -⟩, -, h1⟩
  rw [h2] at h1
  cases h1

/-- Outside a `Reading` no port depends on `buf[0]` (10_state R24). -/
theorem rxPorts_buf0_hidden {rs : ReceiveState} {b0 b : Byte} {v : Bool} (c0 : Byte)
    (h : (rxPorts rs b0 v b).evReading = false) : rxPorts rs c0 v b = rxPorts rs b0 v b := by
  have hr : (v && decide (rs = .burstFirstByteSeen)) = false := h
  simp only [rxPorts, hr, Bool.false_eq_true, if_false]

/-! ### The ports of the TX block -/

/-- The integers that a port of `w` bits presents. -/
theorem exists_toInt_eq_iff {w : Nat} (hw : 0 < w) (n : Int) :
    (∃ x : BitVec w, x.toInt = n) ↔ -2 ^ (w - 1) ≤ n ∧ n < 2 ^ (w - 1) := by
  constructor
  · rintro ⟨x, rfl⟩
    exact ⟨BitVec.le_toInt x, BitVec.toInt_lt⟩
  · rintro ⟨hlo, hhi⟩
    exact ⟨BitVec.ofInt w n, BitVec.toInt_ofInt_eq_self hw hlo hhi⟩

theorem fitsPorts_turnStepper_iff (steps : Int) :
    (Command.turnStepper steps).fitsPorts = true ↔ ∃ x : BitVec Config.stepsW, x.toInt = steps :=
  decide_eq_true_iff.trans (exists_toInt_eq_iff (by decide) steps).symm

theorem fitsPorts_setServo_iff (which : Servo) (position : Int) :
    (Command.setServo which position).fitsPorts = true ↔ ∃ x : BitVec Config.posW, x.toInt = position :=
  decide_eq_true_iff.trans (exists_toInt_eq_iff (by decide) position).symm

/-- Whatever stands at the input ports fits them. -/
theorem fitsPorts_command (p : TxInPorts) : p.command.fitsPorts = true := by
  obtain ⟨kind, mask, on, which, pos, steps⟩ := p
  cases kind with
  | setLed => rfl
  | turnStepper => exact (fitsPorts_turnStepper_iff _).2 ⟨steps, rfl⟩
  | setServo => exact (fitsPorts_setServo_iff _ _).2 ⟨pos, rfl⟩
  | enableBurstMode => rfl

/-- A command that fits the ports stands at them for some levels; those its kind does not read are 0. -/
theorem exists_ports_of_fitsPorts {c : Command} (h : c.fitsPorts = true) : ∃ p : TxInPorts, p.command = c := by
  cases c with
  | setLed mask on => exact ⟨⟨.setLed, mask, on, false, 0, 0⟩, rfl⟩
  | turnStepper steps =>
    obtain ⟨x, rfl⟩ := (fitsPorts_turnStepper_iff _).1 h
    exact ⟨⟨.turnStepper, 0, false, false, 0, x⟩, rfl⟩
  | setServo which position =>
    obtain ⟨x, rfl⟩ := (fitsPorts_setServo_iff _ _).1 h
    cases which with
    | A => exact ⟨⟨.setServo, 0, false, false, x, 0⟩, rfl⟩
    | B => exact ⟨⟨.setServo, 0, false, true, x, 0⟩, rfl⟩
  | enableBurstMode => exact ⟨⟨.enableBurstMode, 0, false, false, 0, 0⟩, rfl⟩

/-- The error bit shows `OutOfRange` and nothing else. -/
theorem txPorts_errOutOfRange_iff (r : TxResult) : (txPorts r).errOutOfRange = true ↔ r = .error .outOfRange := by
  cases r with
  | frames fs => simp [txPorts]
  | error e => simp [txPorts]

/-- A command that returns frames returns at least one (42_tx_led_burst R130). -/
theorem encodeCommand_frames_ne_nil {c : Command} {fs : List Frame} (h : encodeCommand c = .frames fs) : fs ≠ [] := by
  cases c with
  | setLed mask on => cases h; simp
  | turnStepper steps => cases h; simp [stepperCounts_ne_nil]
  | setServo which position =>
    simp only [encodeCommand, encodeSetServo] at h
    split at h
    · cases h; simp
    · cases h
  | enableBurstMode => cases h; simp

@[simp] theorem markLast_map_fst (fs : List Frame) : (markLast fs).map Prod.fst = fs.map Frame.word := by
  induction fs with
  | nil => rfl
  | cons f fs ih => simp [markLast, ih]

/-- The last frame alone is marked. -/
theorem markLast_map_snd {fs : List Frame} (h : fs ≠ []) :
    (markLast fs).map Prod.snd = List.replicate (fs.length - 1) false ++ [true] := by
  induction fs with
  | nil => exact absurd rfl h
  | cons f fs ih =>
    cases fs with
    | nil => rfl
    | cons g gs =>
      have htail := ih (by simp)
      simp only [markLast, List.map_cons] at htail ⊢
      rw [htail]
      rfl

/-- Settles O46: the RX ports show the listing's step state by state; the TX ports are read from the result, whose frames are
never none. -/
theorem portsShowTheBlocks : Obligations.PortsShowTheBlocks := by
  refine ⟨fun s rst v b => rxClock_emitted rst v b s,
    fun rs b0 b v => ⟨rxPorts_not_both rs b0 b v, rxPorts_invalid_events rs b0 b⟩,
    fun rs b0 c0 b v h => rxPorts_buf0_hidden c0 h,
    fun s b v => ⟨rfl, rfl, rxClock_rst v b s⟩, ?_, fun c => txPorts_errOutOfRange_iff _, ?_⟩
  · intro c
    constructor
    · exact exists_ports_of_fitsPorts
    · rintro ⟨p, rfl⟩
      exact fitsPorts_command p
  · intro c fs h
    rw [h]
    exact ⟨markLast_map_fst fs, markLast_map_snd (encodeCommand_frames_ne_nil h)⟩

end Sys2Proof.Machine
end

section
/-! PROOFS, family 20_memory. Nothing that runs writes the inputs: neither an instruction, nor the word that names it, nor any
other input, so a step leaves of them the tail it took the head from. -/

namespace Sys2Proof.Machine

open Sys2Proof

variable {s t : State}

/-- No instruction writes the inputs: a row of the RX block feeds bytes, a command appends its result to `returned`. -/
theorem exec_inputs {i : Instr} (h : exec i s = .next t) : t.inputs = s.inputs := by
  obtain ⟨bs, hbs⟩ | ⟨c, rfl⟩ := rxBytes_or_ofCommand i
  · rw [exec_eq_feedAll hbs] at h
    cases h
    exact feedAll_inputs bs s
  · rw [exec_ofCommand] at h
    cases h
    exact State.returnTx_inputs _ s

/-- No fetched word writes the inputs, whether a stopped receive loop drops it or it runs and its events are routed. -/
theorem runWord_inputs {w : Word} (h : runWord w s = .next t) : t.inputs = s.inputs := by
  obtain ⟨-, -, rfl⟩ | ⟨-, -, i, u, -, hu, rfl⟩ | ⟨-, i, -, hi⟩ := runWord_cases h
  · rfl
  · rw [routeEvents_inputs]
    exact exec_inputs hu
  · exact exec_inputs hi

/-- No input writes the inputs that follow it. -/
theorem runInput_inputs {i : Input} (h : runInput i s = .next t) : t.inputs = s.inputs := by
  obtain ⟨w, -, hw⟩ | ⟨c, -, hc⟩ | ⟨-, rfl⟩ | ⟨-, rfl⟩ | ⟨id, -, rfl⟩ | ⟨e, -, rfl⟩ := runInput_cases h
  · exact runWord_inputs hw
  · exact exec_inputs hc
  · rfl
  · exact rxReset_inputs s
  · exact construct_inputs id s
  · rfl

/-- Settles O42: the fetch takes the head off the inputs, and what it then runs leaves the rest as it is. -/
theorem noLoopBack : Obligations.NoLoopBack := by
  intro s t h
  obtain ⟨hnil, rfl⟩ | ⟨i, rest, hin, hrun⟩ := step_cases h
  · rw [hnil]
    rfl
  · calc
      t.inputs = (s.advance rest).inputs := runInput_inputs hrun
      _ = rest := State.advance_inputs rest s
      _ = s.inputs.tail := by rw [hin, List.tail_cons]

end Sys2Proof.Machine
end

section
/-! PROOFS, family 30_encoding. The parser and the frames it accepts are inverse to each other, and so are the operands of a
command and its payload byte where the operand is in range; from the two follow both directions of decode and encode. A
received sequence is its bytes because the receive loop's routing commutes with a step of the RX block. -/

namespace Sys2Proof.Machine

open Sys2Proof

variable {s : State}

/-! ### Words and their bytes -/

/-- A frame is read back from its word (20_memory R43). -/
@[simp] theorem ofWord_word (f : Frame) : Frame.ofWord f.word = f := by
  obtain ⟨b0, b1, b2, b3⟩ := f
  simp only [Frame.ofWord, Frame.word, Frame.mk.injEq]
  refine ⟨?_, ?_, ?_, BitVec.extractLsb'_append_eq_right⟩
  · rw [BitVec.extractLsb'_append_eq_of_le (by decide), BitVec.extractLsb'_append_eq_of_le (by decide)]
    exact BitVec.extractLsb'_append_eq_left
  · rw [BitVec.extractLsb'_append_eq_of_le (by decide), BitVec.extractLsb'_append_eq_of_le (by decide)]
    exact BitVec.extractLsb'_append_eq_right
  · rw [BitVec.extractLsb'_append_eq_of_le (by decide)]
    exact BitVec.extractLsb'_append_eq_right

/-- The bytes of a word make up the word. -/
@[simp] theorem word_ofWord (w : BitVec 32) : (Frame.ofWord w).word = w := by
  simp only [Frame.ofWord, Frame.word]
  rw [BitVec.extractLsb'_append_extractLsb'_eq_extractLsb' (rfl : 24 = 16 + 8),
    BitVec.extractLsb'_append_extractLsb'_eq_extractLsb' (rfl : 16 = 8 + 8),
    BitVec.extractLsb'_append_extractLsb'_eq_extractLsb' (rfl : 8 = 0 + 8)]
  exact BitVec.extractLsb'_eq_self

/-- A 24-bit word is three bytes, the first the most significant (20_memory R44). -/
theorem exists_bytes (v : BitVec 24) : ∃ h b0 b1 : Byte, v = h ++ b0 ++ b1 := by
  refine ⟨v.extractLsb' 16 8, v.extractLsb' 8 8, v.extractLsb' 0 8, ?_⟩
  rw [BitVec.extractLsb'_append_extractLsb'_eq_extractLsb' (rfl : 16 = 8 + 8),
    BitVec.extractLsb'_append_extractLsb'_eq_extractLsb' (rfl : 8 = 0 + 8)]
  exact BitVec.extractLsb'_eq_self.symm

/-! ### Operands and payload bytes -/

/-- A count of one frame is read back from its payload byte (44_tx_stepper R152). -/
theorem toInt_tc8 {n : Int} (hlo : -127 ≤ n) (hhi : n ≤ 127) : (tc8 n).toInt = n :=
  BitVec.toInt_ofInt_eq_self (by decide) (by omega) (by omega)

@[simp] theorem tc8_toInt (pl : Byte) : tc8 pl.toInt = pl := BitVec.ofInt_toInt

/-- The payload byte that no count of one frame gives is `0x80` (30_encoding R76). -/
theorem toInt_lt_neg_stepChunk_iff (pl : Byte) : pl.toInt < -(Config.stepChunk : Int) ↔ pl = 0x80#8 := by
  have hlo : -128 ≤ pl.toInt := BitVec.le_toInt pl
  have hmin : (0x80#8).toInt = -128 := rfl
  rw [← BitVec.toInt_inj, hmin]
  simp only [Config.stepChunk]
  omega

theorem tc8_ne_0x80 {n : Int} (hlo : -127 ≤ n) (hhi : n ≤ 127) : tc8 n ≠ 0x80#8 := by
  intro h
  have hn := (toInt_lt_neg_stepChunk_iff _).2 h
  rw [toInt_tc8 hlo hhi] at hn
  simp only [Config.stepChunk] at hn
  omega

/-- Every count of a turn fits one frame (44_tx_stepper R151). -/
theorem stepperCounts_bounds {steps c : Int} (h : c ∈ stepperCounts steps) : -127 ≤ c ∧ c ≤ 127 := by
  simp only [stepperCounts, stepperFrameCount, sgn, Config.stepChunk, List.mem_append, List.mem_replicate,
    List.mem_singleton] at h
  obtain ⟨-, rfl⟩ | rfl := h
  · split <;> simp
  · split <;> omega

/-- The payload byte of a position in range carries the rounded value, `0` to `255`, shifted by `127`. -/
theorem servoPayload_toNat {p : Int} (hlo : -90 ≤ p) (hhi : p ≤ 90) :
    ((((servoPayload p).toNat + 127) % 256 : Nat) : Int) = (17 * (p + 90) + 5) / 12 := by
  simp only [servoPayload, servoPos_eq, tc8, BitVec.toNat_ofInt]
  omega

/-- A position in range is read back from its payload byte: one degree moves the rounded value by more than one, so the least
position that reaches it is the position itself (43_tx_servo R146). -/
theorem positionOfPayload_servoPayload {p : Int} (hlo : -90 ≤ p) (hhi : p ≤ 90) :
    positionOfPayload (servoPayload p) = some p := by
  have hp : (24 * ((17 * (p + 90) + 5) / 12) + 22) / 34 - 90 = p := by omega
  rw [positionOfPayload_eq _ _ (servoPayload_toNat hlo hhi).symm, hp]
  simp [(servoInRange_iff p).2 ⟨hlo, hhi⟩]

/-- The inverse of the servo mapping answers the position in range that the byte is the payload of, and only that. -/
theorem positionOfPayload_eq_some_iff {pl : Byte} {p : Int} :
    positionOfPayload pl = some p ↔ -90 ≤ p ∧ p ≤ 90 ∧ pl = servoPayload p := by
  constructor
  · intro h
    rw [positionOfPayload_eq pl _ rfl, Option.ite_none_right_eq_some] at h
    obtain ⟨hc, hp⟩ := h
    cases hp
    rw [Bool.and_eq_true, servoInRange_iff, beq_iff_eq] at hc
    exact ⟨hc.1.1, hc.1.2, hc.2.symm⟩
  · rintro ⟨hlo, hhi, rfl⟩
    exact positionOfPayload_servoPayload hlo hhi

/-! ### The parser -/

/-- The frame that the parser reads a parsed frame from (30_encoding R60 to R63). -/
def unparseFrame : ParsedFrame → Frame
  | .led on mask => commandFrame (ledOpcode on) mask
  | .burstEnable => commandFrame Config.opBurstEn Config.burstEnPayload
  | .servo which pl => commandFrame (servoOpcode which) pl
  | .stepper pl => commandFrame Config.opStep pl

@[simp] theorem parseFrame_unparseFrame (p : ParsedFrame) : parseFrame (unparseFrame p) = .ok p := by
  cases p with
  | led on mask => cases on <;> rfl
  | burstEnable => rfl
  | servo which pl => cases which <;> rfl
  | stepper pl => rfl

/-- A frame that parses is the one frame of what was read. -/
theorem unparseFrame_of_parseFrame {f : Frame} {p : ParsedFrame} (h : parseFrame f = .ok p) : unparseFrame p = f := by
  obtain ⟨b0, b1, b2, b3⟩ := f
  simp only [parseFrame] at h
  split at h
  · cases h
  rename_i hprefix
  obtain ⟨rfl, rfl⟩ : b0 = Config.cmdP0 ∧ b1 = Config.cmdP1 := by simpa [not_or] using hprefix
  split at h
  · next hop =>
    subst hop
    split at h
    · next hpl =>
      subst hpl
      cases h
      rfl
    · cases h
  iterate 5
    split at h
    · next hop => subst hop; cases h; rfl
  cases h

theorem parseFrame_eq_ok_iff {f : Frame} {p : ParsedFrame} : parseFrame f = .ok p ↔ unparseFrame p = f := by
  constructor
  · exact unparseFrame_of_parseFrame
  · rintro rfl
    exact parseFrame_unparseFrame p

theorem ledOpcode_mem (on : Bool) : ledOpcode on ∈ [0xC0#8, 0xC1#8, 0xD0#8, 0xD1#8, 0xF0#8] := by
  cases on <;> decide

theorem servoOpcode_mem (which : Servo) : servoOpcode which ∈ [0xC0#8, 0xC1#8, 0xD0#8, 0xD1#8, 0xF0#8] := by
  cases which <;> decide

theorem opStep_mem : Config.opStep ∈ [0xC0#8, 0xC1#8, 0xD0#8, 0xD1#8, 0xF0#8] := by decide

/-- Settles O34: the frames that parse are those of the four parsed forms, and each opcode is that of one of them. -/
theorem parserAcceptsWellFormedFrames : Obligations.ParserAcceptsWellFormedFrames := by
  intro f
  simp only [parseFrame_eq_ok_iff]
  constructor
  · rintro ⟨p, rfl⟩
    cases p with
    | led on mask => exact ⟨rfl, rfl, .inr (ledOpcode_mem on)⟩
    | burstEnable => exact ⟨rfl, rfl, .inl ⟨rfl, rfl⟩⟩
    | servo which pl => exact ⟨rfl, rfl, .inr (servoOpcode_mem which)⟩
    | stepper pl => exact ⟨rfl, rfl, .inr opStep_mem⟩
  · obtain ⟨b0, b1, b2, b3⟩ := f
    rintro ⟨rfl, rfl, ⟨rfl, rfl⟩ | hop⟩
    · exact ⟨.burstEnable, rfl⟩
    · simp only [List.mem_cons, List.not_mem_nil, or_false] at hop
      obtain rfl | rfl | rfl | rfl | rfl := hop
      · exact ⟨.led false b3, rfl⟩
      · exact ⟨.led true b3, rfl⟩
      · exact ⟨.servo .A b3, rfl⟩
      · exact ⟨.servo .B b3, rfl⟩
      · exact ⟨.stepper b3, rfl⟩

/-! ### The shape of what the TX block produces -/

theorem wellShaped_led (on : Bool) (mask : Byte) : wellShaped (commandFrame (ledOpcode on) mask) := by
  cases on with
  | false => exact ⟨rfl, rfl, .inr (.inl rfl)⟩
  | true => exact ⟨rfl, rfl, .inr (.inr (.inl rfl))⟩

theorem wellShaped_burstEnable : wellShaped (commandFrame Config.opBurstEn Config.burstEnPayload) :=
  ⟨rfl, rfl, .inl ⟨rfl, rfl⟩⟩

theorem wellShaped_servo_iff (which : Servo) (pl : Byte) :
    wellShaped (commandFrame (servoOpcode which) pl) ↔ ∃ p : Int, -90 ≤ p ∧ p ≤ 90 ∧ pl = servoPayload p := by
  cases which <;>
    simp [wellShaped, commandFrame, servoOpcode, whichIndex, Config.cmdP0, Config.cmdP1, Config.opServo,
      Config.servoIndexA, Config.servoIndexB]

theorem wellShaped_stepper_iff (pl : Byte) : wellShaped (commandFrame Config.opStep pl) ↔ pl ≠ 0x80#8 := by
  simp [wellShaped, commandFrame, Config.cmdP0, Config.cmdP1, Config.opStep]

/-- Settles O29: a servo frame stands only for a position in range, and every count of a turn fits one frame. -/
theorem everyFrameWellShaped : Obligations.EveryFrameWellShaped := by
  intro c fs f hfs hf
  cases c with
  | setLed mask on =>
    cases hfs
    rw [List.mem_singleton.1 hf]
    exact wellShaped_led on mask
  | turnStepper steps =>
    cases hfs
    obtain ⟨c, hc, rfl⟩ := List.mem_map.1 hf
    obtain ⟨hlo, hhi⟩ := stepperCounts_bounds hc
    exact (wellShaped_stepper_iff _).2 (tc8_ne_0x80 hlo hhi)
  | setServo which position =>
    simp only [encodeCommand, encodeSetServo] at hfs
    split at hfs
    · next hrange =>
      cases hfs
      rw [List.mem_singleton.1 hf]
      obtain ⟨hlo, hhi⟩ := (servoInRange_iff position).1 hrange
      exact (wellShaped_servo_iff which _).2 ⟨position, hlo, hhi, rfl⟩
    · cases hfs
  | enableBurstMode =>
    cases hfs
    rw [List.mem_singleton.1 hf]
    exact wellShaped_burstEnable

/-! ### Command words -/

theorem decodeTx4_word (p : ParsedFrame) : decodeTx4 (unparseFrame p).word = p.instr := by
  simp [decodeTx4]

/-- A command word that decodes is the word of a parsed frame that has an instruction. -/
theorem decodeTx4_eq_ok_iff {w : BitVec 32} {i : Instr} :
    decodeTx4 w = .ok i ↔ ∃ p, unparseFrame p = Frame.ofWord w ∧ p.instr = .ok i := by
  constructor
  · intro h
    unfold decodeTx4 at h
    split at h
    · next p hp => exact ⟨p, unparseFrame_of_parseFrame hp, h⟩
    · cases h
  · rintro ⟨p, hp, hi⟩
    rw [← word_ofWord w, ← hp, decodeTx4_word, hi]

/-- A parsed frame has an instruction exactly when the TX block can produce the frame (30_encoding R76; log 7). -/
theorem exists_instr_iff_wellShaped (p : ParsedFrame) : (∃ i, p.instr = .ok i) ↔ wellShaped (unparseFrame p) := by
  cases p with
  | led on mask => exact iff_of_true ⟨_, rfl⟩ (wellShaped_led on mask)
  | burstEnable => exact iff_of_true ⟨_, rfl⟩ wellShaped_burstEnable
  | servo which pl =>
    simp only [unparseFrame, wellShaped_servo_iff, ← positionOfPayload_eq_some_iff]
    constructor
    · rintro ⟨i, hi⟩
      obtain ⟨position, hp, -⟩ := servoInstr_ok hi
      exact ⟨position, hp⟩
    · rintro ⟨position, hp⟩
      exact ⟨.servo which position, by rw [ParsedFrame.instr, hp]; rfl⟩
  | stepper pl =>
    simp only [unparseFrame, wellShaped_stepper_iff, ParsedFrame.instr, toInt_lt_neg_stepChunk_iff]
    by_cases hpl : pl = 0x80#8 <;> simp [hpl]

/-- A frame of the TX block's shape parses. -/
theorem exists_unparseFrame_of_wellShaped {f : Frame} (h : wellShaped f) : ∃ p, unparseFrame p = f := by
  obtain ⟨h0, h1, hop⟩ := h
  obtain ⟨p, hp⟩ := (parserAcceptsWellFormedFrames f).2 ⟨h0, h1, by
    obtain h | h | h | ⟨h | h, -⟩ | ⟨h, -⟩ := hop <;> simp [h]⟩
  exact ⟨p, unparseFrame_of_parseFrame hp⟩

/-- Settles O35: a frame of the shape parses, and of the frames that parse those of the shape have an instruction. -/
theorem decodedFramesAreTheProducedOnes : Obligations.DecodedFramesAreTheProducedOnes := by
  intro rs w
  constructor
  · rintro ⟨i, hi⟩
    obtain ⟨p, hp, hi⟩ := decodeTx4_eq_ok_iff.1 hi
    rw [← hp]
    exact (exists_instr_iff_wellShaped p).1 ⟨i, hi⟩
  · intro h
    obtain ⟨p, hp⟩ := exists_unparseFrame_of_wellShaped h
    obtain ⟨i, hi⟩ := (exists_instr_iff_wellShaped p).2 (hp ▸ h)
    exact ⟨i, decodeTx4_eq_ok_iff.2 ⟨p, hp, hi⟩⟩

/-- The instruction of a parsed frame is well formed, stands in no row of the RX block, and encodes as the frame. -/
theorem encode_of_instr {p : ParsedFrame} {i : Instr} (h : p.instr = .ok i) :
    i.wf = true ∧ encode i = .tx4 (unparseFrame p).word ∧ i.rowState = none := by
  cases p with
  | led on mask => cases h; exact ⟨rfl, rfl, rfl⟩
  | burstEnable => cases h; exact ⟨rfl, rfl, rfl⟩
  | servo which pl =>
    obtain ⟨position, hp, rfl⟩ := servoInstr_ok h
    obtain ⟨hlo, hhi, rfl⟩ := positionOfPayload_eq_some_iff.1 hp
    exact ⟨(wf_servo_iff which position).2 ⟨hlo, hhi⟩, rfl, rfl⟩
  | stepper pl =>
    simp only [ParsedFrame.instr] at h
    split at h
    · cases h
    · next hmin =>
      cases h
      have hhi : pl.toInt < 128 := BitVec.toInt_lt
      refine ⟨(wf_stepper_iff _).2 ⟨not_lt.1 hmin, by omega⟩, ?_, rfl⟩
      simp [encode, stepFrame, unparseFrame]

/-! ### Received words -/

/-- The two sequences that a 3-byte word decodes to (30_encoding R66 to R68). -/
theorem decodeRx3_eq_ok_iff {h b0 b1 : Byte} {i : Instr} :
    decodeRx3 (h ++ b0 ++ b1) = .ok i ↔
      h = Config.burstH ∧ i = .burst b0 b1 ∨
      (h = Config.ackH1 ∧ b0 = Config.ackH2 ∧ b1 = Config.ackB) ∧ i = .ackseq := by
  have hh : (h ++ b0 ++ b1).extractLsb' 16 8 = h := by
    rw [BitVec.extractLsb'_append_eq_of_le (by decide)]
    exact BitVec.extractLsb'_append_eq_left
  have h0 : (h ++ b0 ++ b1).extractLsb' 8 8 = b0 := by
    rw [BitVec.extractLsb'_append_eq_of_le (by decide)]
    exact BitVec.extractLsb'_append_eq_right
  have h1 : (h ++ b0 ++ b1).extractLsb' 0 8 = b1 := BitVec.extractLsb'_append_eq_right
  have hne : Config.ackH1 ≠ Config.burstH := by decide
  unfold decodeRx3
  simp only [hh, h0, h1]
  split
  · next hb => simp [hb, hne.symm, eq_comm]
  · next hb =>
    split
    · next ha => simp [ha, hne, eq_comm]
    · next ha => simp [hb, ha]

/-- A 3-byte word that decodes stands for its three bytes (30_encoding R79). -/
theorem rxBytes_of_decodeRx3 {h b0 b1 : Byte} {i : Instr} (hd : decodeRx3 (h ++ b0 ++ b1) = .ok i) :
    rxBytes i = some [h, b0, b1] := by
  obtain ⟨rfl, rfl⟩ | ⟨⟨rfl, rfl, rfl⟩, rfl⟩ := decodeRx3_eq_ok_iff.1 hd
  · rfl
  · rfl

/-- The row that a state and a byte select: the byte is of its class, it stands in that state, and its word is the byte. -/
theorem decodeRxb_row (rs : ReceiveState) (b : Byte) :
    (decodeRxb rs b).wf = true ∧ encode (decodeRxb rs b) = .rxb b ∧ (decodeRxb rs b).rowState = some rs := by
  cases rs with
  | idle =>
    by_cases h1 : b = Config.ackH1
    · subst h1; exact ⟨rfl, rfl, rfl⟩
    by_cases h2 : b = Config.burstH
    · subst h2; exact ⟨rfl, rfl, rfl⟩
    simp [decodeRxb, h1, h2, Instr.wf, encode, Instr.rowState]
  | firstAckHeaderSeen =>
    by_cases hb : b = Config.ackH2
    · subst hb; exact ⟨rfl, rfl, rfl⟩
    · simp [decodeRxb, hb, Instr.wf, encode, Instr.rowState]
  | secondAckHeaderSeen =>
    by_cases hb : b = Config.ackB
    · subst hb; exact ⟨rfl, rfl, rfl⟩
    · simp [decodeRxb, hb, Instr.wf, encode, Instr.rowState]
  | burstHeaderSeen => exact ⟨rfl, rfl, rfl⟩
  | burstFirstByteSeen => exact ⟨rfl, rfl, rfl⟩

/-! ### Decode and encode -/

/-- Settles O31: a command's word parses back to its opcode and payload byte, from which the operand is read back; a received
word decodes by comparison with the fixed bytes of its row. -/
theorem decodeOfEncode : Obligations.DecodeOfEncode := by
  intro i rs hwf hrow
  cases i with
  | setled mask on => exact decodeTx4_word (.led on mask)
  | bursten => exact decodeTx4_word .burstEnable
  | servo which position =>
    obtain ⟨hlo, hhi⟩ := (wf_servo_iff which position).1 hwf
    refine (decodeTx4_word (.servo which (servoPayload position))).trans ?_
    rw [ParsedFrame.instr, positionOfPayload_servoPayload hlo hhi]
    rfl
  | stepper steps =>
    obtain ⟨hlo, hhi⟩ := (wf_stepper_iff steps).1 hwf
    refine (decodeTx4_word (.stepper (tc8 steps))).trans ?_
    rw [ParsedFrame.instr, toInt_tc8 hlo hhi]
    exact if_neg (not_lt.2 hlo)
  | ackseq => rfl
  | burst b0 b1 => exact decodeRx3_eq_ok_iff.2 (.inl ⟨rfl, rfl⟩)
  | rxIdleAckH1 => rw [hrow .idle rfl]; rfl
  | rxIdleBurstH => rw [hrow .idle rfl]; rfl
  | rxIdleOther b =>
    obtain ⟨h1, h2⟩ : b ≠ Config.ackH1 ∧ b ≠ Config.burstH := by simpa [Instr.wf] using hwf
    rw [hrow .idle rfl]
    simp [decode, encode, decodeRxb, h1, h2]
  | rxA1AckH2 => rw [hrow .firstAckHeaderSeen rfl]; rfl
  | rxA1Other b =>
    have hb : b ≠ Config.ackH2 := by simpa [Instr.wf] using hwf
    rw [hrow .firstAckHeaderSeen rfl]
    simp [decode, encode, decodeRxb, hb]
  | rxA2Ack => rw [hrow .secondAckHeaderSeen rfl]; rfl
  | rxA2Other b =>
    have hb : b ≠ Config.ackB := by simpa [Instr.wf] using hwf
    rw [hrow .secondAckHeaderSeen rfl]
    simp [decode, encode, decodeRxb, hb]
  | rxB0Any b => rw [hrow .burstHeaderSeen rfl]; rfl
  | rxB1Any b => rw [hrow .burstFirstByteSeen rfl]; rfl

/-- Settles O32: format by format, the decoder answers only the instruction whose encoding it has just compared. -/
theorem encodeOfDecode : Obligations.EncodeOfDecode := by
  intro rs w i h
  cases w with
  | tx4 w =>
    obtain ⟨p, hp, hi⟩ := decodeTx4_eq_ok_iff.1 h
    obtain ⟨hwf, henc, hrow⟩ := encode_of_instr hi
    refine ⟨hwf, ?_, by simp [hrow]⟩
    rw [henc, hp, word_ofWord]
  | rx3 v =>
    obtain ⟨h, b0, b1, rfl⟩ := exists_bytes v
    obtain ⟨rfl, rfl⟩ | ⟨⟨rfl, rfl, rfl⟩, rfl⟩ := decodeRx3_eq_ok_iff.1 h
    · exact ⟨rfl, rfl, fun r hr => by cases hr⟩
    · exact ⟨rfl, rfl, fun r hr => by cases hr⟩
  | rxb b =>
    cases h
    obtain ⟨hwf, henc, hrow⟩ := decodeRxb_row rs b
    exact ⟨hwf, henc, fun r hr => by simpa [hrow, eq_comm] using hr⟩

/-- Settles O33: the decoder evaluated on the nine words. -/
theorem wordsFromTheSpec : Obligations.WordsFromTheSpec :=
  ⟨rfl, rfl, rfl, rfl, rfl, rfl, rfl, rfl, rfl⟩

/-! ### The channel of a burst payload -/

theorem channelOf_eq (b0 : Byte) : channelOf b0 = channelOfCode (BitVec.ofNat 4 (b0.toNat / 16)) := by
  rw [channelOf, channelCode, BitVec.extractLsb', Nat.shiftRight_eq_div_pow]
  rfl

theorem channelOfCode_resistive (i : Fin 4) : channelOfCode (BitVec.ofNat 4 (i.val + 4)) = .resistiveInput i := by
  revert i
  decide

/-- A code from 8 on is none of the eight that are assigned (41_rx_burst R117). -/
theorem channelOfCode_unmapped {c : BitVec Config.chanW} (h : 8 ≤ c.toNat) : channelOfCode c = .unmapped c := by
  have hne : ∀ n < 8, c ≠ BitVec.ofNat 4 n := by
    rintro n hn rfl
    have hle : 8 ≤ n := h.trans (Nat.mod_le n 16)
    omega
  have h0 : c ≠ Config.chanSlider := hne 0 (by decide)
  have h1 : c ≠ Config.chanInfrared := hne 1 (by decide)
  have h2 : c ≠ Config.chanSound := hne 2 (by decide)
  have h3 : c ≠ Config.chanButton := hne 3 (by decide)
  have h4 : c ≠ Config.chanResistive0 := hne 4 (by decide)
  have h5 : c ≠ Config.chanResistive1 := hne 5 (by decide)
  have h6 : c ≠ Config.chanResistive2 := hne 6 (by decide)
  have h7 : c ≠ Config.chanResistive3 := hne 7 (by decide)
  simp [channelOfCode, h0, h1, h2, h3, h4, h5, h6, h7]

/-- Settles O16: the high nibble is the code, and the assigned codes are 0 to 7. -/
theorem channelOfPayload : Obligations.ChannelOfPayload := by
  intro b0
  have hb : b0.toNat < 256 := b0.isLt
  have hcode : (BitVec.ofNat 4 (b0.toNat / 16)).toNat = b0.toNat / 16 := Nat.mod_eq_of_lt (b := 16) (by omega)
  rw [channelOf_eq]
  exact ⟨fun h => by rw [h]; rfl, fun h => by rw [h]; rfl, fun h => by rw [h]; rfl, fun h => by rw [h]; rfl,
    fun i h => by rw [h, channelOfCode_resistive], fun h => channelOfCode_unmapped (hcode.symm ▸ h)⟩

/-! ### Fetched words -/

/-- A command word that decodes is run by `exec` alone (60_exceptions R214). -/
theorem runWord_command {w : Word} {i : Instr} (hw : w.received = false) (hd : decode s.rs w = .ok i) :
    runWord w s = exec i s := by
  simp [runWord, hw, hd]

/-- A received word that decodes is fed by a running receive loop, and its events are routed (45_environment R185). -/
theorem runWord_received {w : Word} {i : Instr} {bs : List Byte} (hw : w.received = true) (hctrl : s.env.ctrl ≠ .stopped)
    (hd : decode s.rs w = .ok i) (hbs : rxBytes i = some bs) :
    runWord w s = .next (routeEvents Config.senderParams (feedAll bs s)) := by
  simp [runWord, hw, hctrl, hd, exec_eq_feedAll hbs, deliver]

/-- A received word decodes to an instruction of the RX block. -/
theorem rxBytes_of_received {rs : ReceiveState} {w : Word} {i : Instr} (hw : w.received = true) (hd : decode rs w = .ok i) :
    ∃ bs, rxBytes i = some bs := by
  cases w with
  | tx4 w => cases hw
  | rx3 v =>
    obtain ⟨h, b0, b1, rfl⟩ := exists_bytes v
    exact ⟨_, rxBytes_of_decodeRx3 hd⟩
  | rxb b =>
    cases hd
    exact ⟨_, rxBytes_decodeRxb rs b⟩

/-- One received byte is one step of the listing, its event routed. -/
theorem step_byte {b : Byte} {rest : List Input} (hin : s.inputs = .word (.rxb b) :: rest) (hctrl : s.env.ctrl ≠ .stopped) :
    step s = .next (routeEvents Config.senderParams (feed b (s.advance rest))) := by
  rw [step_cons hin]
  exact runWord_received (s := s.advance rest) (w := .rxb b) rfl hctrl rfl (rxBytes_decodeRxb s.rs b)

/-! ### A sequence and its bytes -/

/-- Routing leaves the controller running, or stopped (45_environment R186). -/
theorem routeEvents_ctrl (P : SenderParams) (s : State) : (routeEvents P s).env.ctrl = s.env.ctrl :=
  (routeEvents_frame P s.emitted s.env).1

/-- Events are routed in their order, so routing what is latched before one more event is emitted changes nothing. -/
theorem routeEvents_emit_routeEvents (P : SenderParams) (e : DecodedEvent) (s : State) :
    routeEvents P ((routeEvents P s).emit e) = routeEvents P (s.emit e) := by
  simp [routeEvents, State.emit]

theorem routeEvents_goto_routeEvents (P : SenderParams) (r : ReceiveState) (s : State) :
    routeEvents P ((routeEvents P s).goto r) = routeEvents P (s.goto r) := by
  simp [routeEvents, State.goto]

/-- The RX block does not see what was routed before a byte: routing the events of both at once is the same. -/
theorem routeEvents_feed_routeEvents (P : SenderParams) (b : Byte) (s : State) :
    routeEvents P (feed b (routeEvents P s)) = routeEvents P (feed b s) := by
  cases h : s.rs with
  | idle =>
    rw [feed_idle h, feed_idle (s := routeEvents P s) h]
    split
    · exact routeEvents_goto_routeEvents P _ s
    · split <;> exact routeEvents_goto_routeEvents P _ s
  | firstAckHeaderSeen =>
    rw [feed_firstAck h, feed_firstAck (s := routeEvents P s) h]
    split <;> exact routeEvents_goto_routeEvents P _ s
  | secondAckHeaderSeen =>
    rw [feed_secondAck h, feed_secondAck (s := routeEvents P s) h]
    split
    · exact routeEvents_emit_routeEvents P .ack (s.goto .idle)
    · exact routeEvents_goto_routeEvents P _ s
  | burstHeaderSeen =>
    rw [feed_burstHeader h, feed_burstHeader (s := routeEvents P s) h]
    exact routeEvents_goto_routeEvents P _ (s.storeBuf0 b)
  | burstFirstByteSeen =>
    rw [feed_burstFirst h, feed_burstFirst (s := routeEvents P s) h]
    exact routeEvents_emit_routeEvents P _ ((s.storeBuf1 b).goto .idle)

theorem routeEvents_feedAll_routeEvents (P : SenderParams) (bs : List Byte) (s : State) :
    routeEvents P (feedAll bs (routeEvents P s)) = routeEvents P (feedAll bs s) := by
  induction bs generalizing s with
  | nil => simp [routeEvents]
  | cons b bs ih =>
    calc routeEvents P (feedAll bs (feed b (routeEvents P s)))
      _ = routeEvents P (feedAll bs (routeEvents P (feed b (routeEvents P s)))) := (ih _).symm
      _ = routeEvents P (feedAll bs (routeEvents P (feed b s))) := by rw [routeEvents_feed_routeEvents]
      _ = routeEvents P (feedAll bs (feed b s)) := ih _

/-- The RX block does not see the inputs. -/
theorem advance_feed (rest : List Input) (b : Byte) (s : State) : (feed b s).advance rest = feed b (s.advance rest) := by
  cases h : s.rs with
  | idle =>
    rw [feed_idle h, feed_idle (s := s.advance rest) h]
    split
    · rfl
    · split <;> rfl
  | firstAckHeaderSeen =>
    rw [feed_firstAck h, feed_firstAck (s := s.advance rest) h]
    split <;> rfl
  | secondAckHeaderSeen =>
    rw [feed_secondAck h, feed_secondAck (s := s.advance rest) h]
    split <;> rfl
  | burstHeaderSeen => rw [feed_burstHeader h, feed_burstHeader (s := s.advance rest) h]; rfl
  | burstFirstByteSeen => rw [feed_burstFirst h, feed_burstFirst (s := s.advance rest) h]; rfl

/-- A run over received bytes is the listing over them, its events routed once. -/
theorem run_bytes (b : Byte) (bs : List Byte) {s : State} {rest : List Input}
    (hin : s.inputs = (b :: bs).map (fun b => .word (.rxb b)) ++ rest) (hctrl : s.env.ctrl ≠ .stopped) :
    run (bs.length + 1) s = .next (routeEvents Config.senderParams (feedAll (b :: bs) (s.advance rest))) := by
  induction bs generalizing b s with
  | nil => rw [List.length_nil, run_succ (step_byte hin hctrl)]; rfl
  | cons c cs ih =>
    have hadvance (r : List Input) :
        (routeEvents Config.senderParams (feed b (s.advance r))).advance rest =
          routeEvents Config.senderParams (feed b (s.advance rest)) :=
      congrArg (routeEvents Config.senderParams) (advance_feed rest b (s.advance r))
    rw [List.length_cons, run_succ (step_byte hin hctrl), ih c (by simp)
      (by rw [routeEvents_ctrl, feed_env]; exact hctrl), hadvance, routeEvents_feedAll_routeEvents]
    rfl

/-- Settles O38: the three bytes take three steps, and the routing between them does not show. -/
theorem sequenceIsThreeBytes : Obligations.SequenceIsThreeBytes := by
  intro s h b0 b1 rest i hd hctrl
  have hbytes := run_bytes h [b0, b1] (rest := rest)
    (s := { s with inputs := .word (.rxb h) :: .word (.rxb b0) :: .word (.rxb b1) :: rest }) rfl hctrl
  refine (step_cons rfl).trans (.trans ?_ hbytes.symm)
  exact runWord_received (s := { s with inputs := rest }) (w := .rx3 (h ++ b0 ++ b1)) rfl hctrl hd
    (rxBytes_of_decodeRx3 hd)

/-! ### A placed word -/

theorem withFetchWord_of_tableWord {nbits w : Nat} {x : Word} (h : tableWord nbits w = some x) :
    s.withFetchWord nbits w = placeWord x s := by
  simp [State.withFetchWord, h]

theorem decodeTableWord_of_decode {nbits w : Nat} {x : Word} {i : Instr} (h : tableWord nbits w = some x)
    (hd : decode (tableState x) x = .ok i) : decodeTableWord nbits w = some i := by
  simp [decodeTableWord, h, hd, Except.toOption]

theorem placeWord_inputs (x : Word) (s : State) : (placeWord x s).inputs = .word x :: s.inputs := by
  cases x <;> rfl

/-- Placing a command word changes the inputs alone. -/
theorem advance_placeWord_command {x : Word} (hx : x.received = false) (s : State) :
    (placeWord x s).advance s.inputs = s := by
  simp [placeWord, hx, State.advance]

/-- The decoder reads a word placed as the table reads it: only a byte is read in a state, and it is placed in that of its
row. -/
theorem decode_placeWord (x : Word) (s : State) : decode (placeWord x s).rs x = decode (tableState x) x := by
  cases x <;> rfl

/-- A receive loop runs after a received word is placed. -/
theorem placeWord_ctrl {x : Word} (hx : x.received = true) (s : State) : (placeWord x s).env.ctrl ≠ .stopped := by
  have hctrl : (placeWord x s).env.ctrl = if s.env.ctrl = .stopped then .starting else s.env.ctrl := by
    cases x with
    | tx4 w => cases hx
    | rx3 v => rfl
    | rxb b => rfl
  rw [hctrl]
  split
  · decide
  · assumption

/-- Settles O37: the next step takes the placed word off, and the state it was placed in is the one the table reads it in. -/
theorem placedWordRunsNext : Obligations.PlacedWordRunsNext := by
  intro s nbits w x i htable hd
  have hdecode : decode ((placeWord x s).advance s.inputs).rs x = .ok i := (decode_placeWord x s).trans hd
  have hstep : step (s.withFetchWord nbits w) = runWord x ((placeWord x s).advance s.inputs) := by
    rw [withFetchWord_of_tableWord htable, step_cons (placeWord_inputs x s)]
    rfl
  refine ⟨decodeTableWord_of_decode htable hd, ?_, ?_⟩
  · intro hx
    rw [hstep, runWord_command hx hdecode, advance_placeWord_command hx]
  · intro hx
    obtain ⟨bs, hbs⟩ := rxBytes_of_received hx hd
    refine ⟨⟨_, exec_eq_feedAll hbs, hstep.trans (runWord_received hx (placeWord_ctrl hx s) hdecode hbs)⟩, ?_⟩
    cases x with
    | tx4 w => cases hx
    | rx3 v => rfl
    | rxb b => rfl

end Sys2Proof.Machine
end

section
/-! PROOFS, family 40_rx_ack. From each state of the RX block a byte has its one row; an `Ack` is traced back through the
states that lead to it, byte by byte; and what the machine does around the listing: the fetched word, silence, and an `Ack`
that nobody waits for. -/

namespace Sys2Proof.Machine

open Sys2Proof

variable {s : State} {b : Byte}

/-! ### One row of the listing each -/

theorem goto_self {r : ReceiveState} (h : s.rs = r) : s.goto r = s := by
  subst h
  rfl

/-- R91: the first ack header, in `Idle`. -/
theorem feed_ackH1 (h : s.rs = .idle) : feed 0x55#8 s = s.goto .firstAckHeaderSeen := (feed_idle h).trans (if_pos rfl)

/-- R110: the burst header, in `Idle`. -/
theorem feed_burstH (h : s.rs = .idle) : feed 0x0C#8 s = s.goto .burstHeaderSeen := by
  rw [feed_idle h, if_neg (by decide)]
  exact if_pos rfl

/-- R97: any other byte in `Idle` is ignored. -/
theorem feed_noise (h : s.rs = .idle) (h1 : b ≠ 0x55#8) (h2 : b ≠ 0x0C#8) : feed b s = s := by
  rw [feed_idle h, if_neg (show b ≠ Config.ackH1 from h1), if_neg (show b ≠ Config.burstH from h2), goto_self h]

/-- R92: the second ack header, after the first. -/
theorem feed_ackH2 (h : s.rs = .firstAckHeaderSeen) : feed 0xFF#8 s = s.goto .secondAckHeaderSeen :=
  (feed_firstAck h).trans (if_pos rfl)

/-- R93: the ack byte, after both headers. -/
theorem feed_ackB (h : s.rs = .secondAckHeaderSeen) : feed 0xAA#8 s = (s.goto .idle).emit .ack :=
  (feed_secondAck h).trans (if_pos rfl)

/-- R94 to R96: a mismatch in an ack state is consumed. -/
theorem feed_mismatch (h : s.rs = .firstAckHeaderSeen ∧ b ≠ 0xFF#8 ∨ s.rs = .secondAckHeaderSeen ∧ b ≠ 0xAA#8) :
    feed b s = s.goto .idle := by
  obtain ⟨hrs, hb⟩ | ⟨hrs, hb⟩ := h
  · exact (feed_firstAck hrs).trans (if_neg hb)
  · exact (feed_secondAck hrs).trans (if_neg hb)

/-- An instruction for one byte has the listing's effect, and is what the byte runs. -/
theorem exec_row {i : Instr} {t : State} (hi : rxBytes i = some [b]) (h : feed b s = t) :
    exec i s = .next t ∧ rxByte b s = exec i s := by
  subst h
  exact ⟨exec_eq_feedAll hi, (rxByte_eq_feed b s).trans (exec_eq_feedAll hi).symm⟩

/-- The state that a byte run through its row leads to is the listing's. -/
theorem rxByte_eq_next_iff {t : State} : rxByte b s = .next t ↔ feed b s = t := by
  rw [rxByte_eq_feed, Host.Outcome.next.injEq]

/-! ### How the ack states are entered and left -/

/-- A byte leads to `Idle`, or it is the one that goes on in a frame. -/
theorem feed_rs_cases (b : Byte) (s : State) :
    (feed b s).rs = .idle ∨
    (s.rs = .idle ∧ b = 0x55#8 ∧ (feed b s).rs = .firstAckHeaderSeen) ∨
    (s.rs = .idle ∧ b = 0x0C#8 ∧ (feed b s).rs = .burstHeaderSeen) ∨
    (s.rs = .firstAckHeaderSeen ∧ b = 0xFF#8 ∧ (feed b s).rs = .secondAckHeaderSeen) ∨
    (s.rs = .burstHeaderSeen ∧ (feed b s).rs = .burstFirstByteSeen) := by
  cases h : s.rs with
  | idle =>
    rw [feed_idle h]
    split
    · next hb => exact .inr (.inl ⟨rfl, hb, rfl⟩)
    · split
      · next hb => exact .inr (.inr (.inl ⟨rfl, hb, rfl⟩))
      · exact .inl rfl
  | firstAckHeaderSeen =>
    rw [feed_firstAck h]
    split
    · next hb => exact .inr (.inr (.inr (.inl ⟨rfl, hb, rfl⟩)))
    · exact .inl rfl
  | secondAckHeaderSeen =>
    rw [feed_secondAck h]
    split <;> exact .inl rfl
  | burstHeaderSeen => exact .inr (.inr (.inr (.inr ⟨rfl, by rw [feed_burstHeader h]; rfl⟩)))
  | burstFirstByteSeen => exact .inl (by rw [feed_burstFirst h]; rfl)

/-- Only `0x55` in `Idle` leads to `FirstAckHeaderSeen` (40_rx_ack R91). -/
theorem feed_rs_firstAck_iff : (feed b s).rs = .firstAckHeaderSeen ↔ s.rs = .idle ∧ b = 0x55#8 := by
  constructor
  · intro h
    obtain h' | ⟨hrs, hb, -⟩ | ⟨-, -, h'⟩ | ⟨-, -, h'⟩ | ⟨-, h'⟩ := feed_rs_cases b s
    · simp [h'] at h
    · exact ⟨hrs, hb⟩
    · simp [h'] at h
    · simp [h'] at h
    · simp [h'] at h
  · rintro ⟨hrs, rfl⟩
    rw [feed_ackH1 hrs, State.goto_rs]

/-- Only `0xFF` in `FirstAckHeaderSeen` leads to `SecondAckHeaderSeen` (40_rx_ack R92). -/
theorem feed_rs_secondAck_iff : (feed b s).rs = .secondAckHeaderSeen ↔ s.rs = .firstAckHeaderSeen ∧ b = 0xFF#8 := by
  constructor
  · intro h
    obtain h' | ⟨-, -, h'⟩ | ⟨-, -, h'⟩ | ⟨hrs, hb, -⟩ | ⟨-, h'⟩ := feed_rs_cases b s
    · simp [h'] at h
    · simp [h'] at h
    · simp [h'] at h
    · exact ⟨hrs, hb⟩
    · simp [h'] at h
  · rintro ⟨hrs, rfl⟩
    rw [feed_ackH2 hrs, State.goto_rs]

/-- Only `0xAA` in `SecondAckHeaderSeen` emits an `Ack` (40_rx_ack R93). -/
theorem feed_emits_ack_iff :
    (feed b s).emitted = s.emitted ++ [.ack] ↔ s.rs = .secondAckHeaderSeen ∧ b = 0xAA#8 := by
  constructor
  · intro h
    obtain ⟨r, hf, -, -⟩ | ⟨-, hf⟩ | ⟨-, hf⟩ | ⟨hrs, hb, -⟩ := feed_cases b s
    · simp [hf] at h
    · simp [hf] at h
    · simp [hf] at h
    · exact ⟨hrs, hb⟩
  · rintro ⟨hrs, rfl⟩
    rw [feed_ackB hrs]
    rfl

/-- Outside the two states that end a frame a byte emits nothing. -/
theorem feed_emitted_of_not_last (h1 : s.rs ≠ .secondAckHeaderSeen) (h2 : s.rs ≠ .burstFirstByteSeen) :
    (feed b s).emitted = s.emitted := by
  obtain ⟨r, hf, -, -⟩ | ⟨-, hf⟩ | ⟨hrs, -⟩ | ⟨hrs, -, -⟩ := feed_cases b s
  · rw [hf, State.goto_emitted]
  · rw [hf]
    rfl
  · exact absurd hrs h2
  · exact absurd hrs h1

/-- A state that only the byte `c` enters, and only from `r'`, is reached by a sequence whose last byte is that one. -/
theorem feedAll_rs_iff {r r' : ReceiveState} {c : Byte} (bs : List Byte) (hstart : s.rs ≠ r)
    (henter : ∀ {b : Byte} {t : State}, (feed b t).rs = r ↔ t.rs = r' ∧ b = c) :
    (feedAll bs s).rs = r ↔ ∃ before, bs = before ++ [c] ∧ (feedAll before s).rs = r' := by
  obtain rfl | ⟨init, b, rfl⟩ := List.eq_nil_or_concat' bs
  · simp [hstart]
  · simp [feedAll_append, henter, eq_comm, and_comm]

/-- From `Idle`, `SecondAckHeaderSeen` is reached by the two ack headers, the first fed in `Idle`. -/
theorem feedAll_rs_secondAck_iff (bs : List Byte) (h : s.rs = .idle) :
    (feedAll bs s).rs = .secondAckHeaderSeen ↔
      ∃ before, bs = before ++ [0x55#8, 0xFF#8] ∧ (feedAll before s).rs = .idle := by
  have hfirst (cs : List Byte) := feedAll_rs_iff cs (s := s) (by simp [h]) feed_rs_firstAck_iff
  rw [feedAll_rs_iff bs (by simp [h]) feed_rs_secondAck_iff]
  simp only [hfirst]
  constructor
  · rintro ⟨_, rfl, before, rfl, hidle⟩
    exact ⟨before, by simp, hidle⟩
  · rintro ⟨before, rfl, hidle⟩
    exact ⟨before ++ [0x55#8], by simp, before, rfl, hidle⟩

/-! ### Short sequences from `Idle` -/

theorem feedAll_ackSequence (h : s.rs = .idle) :
    feedAll [0x55#8, 0xFF#8, 0xAA#8] s = { s with emitted := s.emitted ++ [.ack] } := by
  rw [feedAll_cons, feed_ackH1 h, feedAll_cons, feed_ackH2 rfl, feedAll_cons, feed_ackB rfl, ← h]
  rfl

/-- A burst frame stores its payload and emits the reading (41_rx_burst R110 to R112). -/
theorem feedAll_burstFrame (b0 b1 : Byte) (h : s.rs = .idle) :
    feedAll [0x0C#8, b0, b1] s =
      { s with buf0 := b0, buf1 := b1, emitted := s.emitted ++ [.reading (readingOf b0 b1)] } := by
  rw [feedAll_cons, feed_burstH h, feedAll_cons, feed_burstHeader rfl, feedAll_cons, feed_burstFirst rfl, ← h]
  rfl

/-- A mismatch after the first header leaves no trace (40_rx_ack R94, R96). -/
theorem feedAll_mismatch_first (h : s.rs = .idle) (hb : b ≠ 0xFF#8) : feedAll [0x55#8, b] s = s := by
  rw [feedAll_cons, feed_ackH1 h, feedAll_cons, feed_mismatch (.inl ⟨rfl, hb⟩)]
  exact goto_self h

/-- A mismatch after the second header leaves no trace (40_rx_ack R95, R96). -/
theorem feedAll_mismatch_second (h : s.rs = .idle) (hb : b ≠ 0xAA#8) : feedAll [0x55#8, 0xFF#8, b] s = s := by
  rw [feedAll_cons, feed_ackH1 h, feedAll_cons, feed_ackH2 rfl, feedAll_cons, feed_mismatch (.inr ⟨rfl, hb⟩)]
  exact goto_self h

theorem feed_ackH2_idle (h : s.rs = .idle) : feed 0xFF#8 s = s := feed_noise h (by decide) (by decide)

theorem feed_ackB_idle (h : s.rs = .idle) : feed 0xAA#8 s = s := feed_noise h (by decide) (by decide)

/-- The rest of the ack sequence, without its first header, is noise (40_rx_ack R97). -/
theorem feedAll_ackTail (h : s.rs = .idle) : feedAll [0xFF#8, 0xAA#8] s = s := by
  rw [feedAll_cons, feed_ackH2_idle h, feedAll_cons, feed_ackB_idle h, feedAll_nil]

/-- Bytes that lead back to the same state may be left out in front. -/
theorem feedAll_append_of_self {bs : List Byte} (h : feedAll bs s = s) (cs : List Byte) :
    feedAll (bs ++ cs) s = feedAll cs s := by
  rw [feedAll_append, h]

/-- No frame ends within two bytes. -/
theorem feedAll_pair_emitted (x y : Byte) (h : s.rs = .idle) : (feedAll [x, y] s).emitted = s.emitted := by
  rw [feedAll_cons, feedAll_cons, feedAll_nil, feed_idle h]
  split
  · exact feed_emitted_of_not_last (by simp) (by simp)
  · split <;> exact feed_emitted_of_not_last (by simp) (by simp)

/-! ### The obligations on the listing -/

/-- Settles O3: the ack byte's row, the one step that emits an `Ack`, and the way back from it to `Idle`. -/
theorem ackExactlyOnAckSequence : Obligations.AckExactlyOnAckSequence := by
  refine ⟨fun s h => exec_row rfl (feed_ackB h), ?_, ?_⟩
  · intro s b t ht hemit
    rw [rxByte_eq_next_iff] at ht
    subst ht
    exact feed_emits_ack_iff.1 hemit
  · intro s bs b h
    have hlast : feedAll (bs ++ [b]) s = feed b (feedAll bs s) := feedAll_append bs [b] s
    rw [hlast, feed_emits_ack_iff, feedAll_rs_secondAck_iff bs h]
    constructor
    · rintro ⟨⟨before, hbs, hidle⟩, hb⟩
      exact ⟨before, hbs, hb, hidle⟩
    · rintro ⟨before, hbs, hb, hidle⟩
      exact ⟨⟨before, hbs, hidle⟩, hb⟩

/-- Settles O11: the mismatch is back in `Idle`, where the bytes after it are fed afresh. -/
theorem mismatchNotReexamined : Obligations.MismatchNotReexamined := by
  refine ⟨fun s b h => feed_mismatch h, fun s h => ⟨?_, fun x y => ?_, ?_⟩⟩
  · exact (feedAll_append_of_self (feedAll_mismatch_first h (by decide)) [0xFF#8, 0xAA#8]).trans (feedAll_ackTail h)
  · have hxy : feedAll [0x55#8, 0x0C#8, x, y] s = feedAll [x, y] s :=
      feedAll_append_of_self (feedAll_mismatch_first h (by decide)) [x, y]
    rw [hxy]
    exact ⟨rfl, feedAll_pair_emitted x y h⟩
  · exact (feedAll_append_of_self (feedAll_mismatch_second h (by decide)) [0xFF#8, 0xAA#8]).trans (feedAll_ackTail h)

/-- Settles O12: inside the sequence the byte is a mismatch; before it, it is noise, or a header that takes the `0x55` for a
mismatch or for payload. -/
theorem insertedByteInAckSequence : Obligations.InsertedByteInAckSequence := by
  refine fun s x h => ⟨fun hx => ?_, fun hx => ?_, fun h1 h2 => ?_, ?_, ?_⟩
  · exact (feedAll_append_of_self (feedAll_mismatch_first h hx) [0xFF#8, 0xAA#8]).trans (feedAll_ackTail h)
  · exact (feedAll_append_of_self (feedAll_mismatch_second h hx) [0xAA#8]).trans (feed_ackB_idle h)
  · rw [feedAll_cons, feed_noise h h1 h2, feedAll_ackSequence h]
  · rintro rfl
    exact (feedAll_append_of_self (feedAll_mismatch_first h (by decide)) [0xFF#8, 0xAA#8]).trans (feedAll_ackTail h)
  · rintro rfl
    calc feedAll [0x0C#8, 0x55#8, 0xFF#8, 0xAA#8] s
      _ = feed 0xAA#8 (feedAll [0x0C#8, 0x55#8, 0xFF#8] s) := rfl
      _ = feedAll [0x0C#8, 0x55#8, 0xFF#8] s := feed_ackB_idle (by rw [feedAll_burstFrame _ _ h]; exact h)
      _ = _ := feedAll_burstFrame _ _ h

/-- Settles O1: a header in `Idle`, a mismatch in the ack states, payload in the burst states. -/
theorem firstAckHeader : Obligations.FirstAckHeader := by
  refine fun s => ⟨fun h => exec_row rfl (feed_ackH1 h), fun h => ?_, fun h => ?_, fun h => ?_⟩
  · exact rxByte_eq_next_iff.2 (feed_mismatch (h.imp (⟨·, by decide⟩) (⟨·, by decide⟩)))
  · exact rxByte_eq_next_iff.2 (feed_burstHeader h)
  · exact rxByte_eq_next_iff.2 (feed_burstFirst h)

/-- Settles O2: the row of the second header, and the one way into each of the two ack states. -/
theorem secondAckHeader : Obligations.SecondAckHeader := by
  refine fun s => ⟨fun h => exec_row rfl (feed_ackH2 h), fun h => rxByte_eq_next_iff.2 (feed_ackH2_idle h),
    fun b t ht hrs => ?_, fun b t ht hrs => ?_⟩
  · rw [← rxByte_eq_next_iff.1 ht] at hrs
    exact feed_rs_secondAck_iff.1 hrs
  · rw [← rxByte_eq_next_iff.1 ht] at hrs
    exact feed_rs_firstAck_iff.1 hrs

/-- Settles O4: the row of every other byte after the first header. -/
theorem mismatchAfterFirstHeader : Obligations.MismatchAfterFirstHeader :=
  fun _ _ hrs hb => exec_row rfl (feed_mismatch (.inl ⟨hrs, hb⟩))

/-- Settles O5: the row of every other byte after the second header. -/
theorem mismatchAfterSecondHeader : Obligations.MismatchAfterSecondHeader :=
  fun _ _ hrs hb => exec_row rfl (feed_mismatch (.inr ⟨hrs, hb⟩))

/-- Settles O6: the row of every byte that is no header, in `Idle`. -/
theorem noiseIgnoredInIdle : Obligations.NoiseIgnoredInIdle :=
  fun _ _ hrs h1 h2 => exec_row rfl (feed_noise hrs h1 h2)

/-- Settles O13: `ACKSEQ` feeds the three bytes. -/
theorem ackSequenceFromIdle : Obligations.AckSequenceFromIdle :=
  fun s h => (exec_eq_feedAll (i := .ackseq) (s := s) rfl).trans (congrArg Host.Outcome.next (feedAll_ackSequence h))

/-! ### Around the listing -/

/-- A stopped receive loop takes a received word and does not feed it (45_environment R189; log 17). -/
theorem runWord_stopped {w : Word} (hw : w.received = true) (hctrl : s.env.ctrl = .stopped) : runWord w s = .next s := by
  simp [runWord, hw, hctrl]

/-- Settles O36: the step takes the head off the inputs and runs it, a word by the instruction it decodes to. -/
theorem stepRunsTheDecodedWord : Obligations.StepRunsTheDecodedWord := by
  refine ⟨fun s w rest i hin hd => ⟨fun hw => ?_, fun hw hctrl => ?_, fun hw hctrl => ?_⟩,
    fun s rest => ⟨fun c hin => step_cons hin, fun e hin => step_cons hin, fun hin => step_cons hin, step_nil⟩⟩
  · rw [step_cons hin]
    exact runWord_command (s := s.advance rest) hw hd
  · obtain ⟨bs, hbs⟩ := rxBytes_of_received hw hd
    refine ⟨_, exec_eq_feedAll hbs, ?_⟩
    rw [step_cons hin]
    exact runWord_received (s := s.advance rest) hw hctrl hd hbs
  · rw [step_cons hin]
    exact runWord_stopped (s := s.advance rest) hw hctrl

/-- An input without a byte leaves the RX block and its outputs alone; silence leaves the environment alone too
(40_rx_ack R98). -/
theorem step_silent {i : Input} {rest : List Input} (hi : i = .noByte ∨ i = .env .tick) (hin : s.inputs = i :: rest) :
    ∃ e, step s = .next { s with inputs := rest, env := e } ∧ (i = .noByte → e = s.env) := by
  obtain rfl | rfl := hi
  · exact ⟨s.env, step_cons hin, fun _ => rfl⟩
  · exact ⟨tick s.env, step_cons hin, nofun⟩

/-- The same of a silence of any length. -/
theorem run_silent {silence rest : List Input} (hsilent : ∀ i ∈ silence, i = .noByte ∨ i = .env .tick)
    (hin : s.inputs = silence ++ rest) :
    ∃ e, run silence.length s = .next { s with inputs := rest, env := e } ∧
      ((∀ i ∈ silence, i = .noByte) → e = s.env) := by
  induction silence generalizing s with
  | nil =>
    subst hin
    exact ⟨s.env, rfl, fun _ => rfl⟩
  | cons i silence ih =>
    rw [List.forall_mem_cons] at hsilent
    obtain ⟨e, hstep, he⟩ := step_silent hsilent.1 hin
    obtain ⟨e', hrun, he'⟩ := ih (s := { s with inputs := silence ++ rest, env := e }) hsilent.2 rfl
    refine ⟨e', (run_succ hstep).trans hrun, fun hall => ?_⟩
    rw [List.forall_mem_cons] at hall
    exact (he' hall.2).trans (he hall.1)

/-- Settles O39: by induction on the silence, whose inputs each touch the environment at most. -/
theorem silenceKeepsTheFrame : Obligations.SilenceKeepsTheFrame := by
  intro silence rest s hsilent hin
  obtain ⟨e, hrun, he⟩ := run_silent hsilent hin
  exact ⟨_, hrun, rfl, rfl, rfl, rfl, rfl, rfl, fun hall => he (by simpa using hall)⟩

/-- With no send outstanding an `Ack` is discarded (45_environment R185). -/
theorem routeAck_of_no_pending (P : SenderParams) {e : Env} (h : e.pending = none) : routeAck P e = e := by
  simp [routeAck, h]

/-- Settles O51: the ack byte emits the `Ack`, which its routing delivers and the sender discards. -/
theorem unexpectedAckDiscarded : Obligations.UnexpectedAckDiscarded := by
  intro s rest hin hrs hemitted hpending hctrl
  rw [step_byte hin hctrl, feed_ackB (s := s.advance rest) hrs]
  simp [routeEvents, State.emit, State.goto, State.advance, hemitted, routeEvent, routeAck_of_no_pending _ hpending]

end Sys2Proof.Machine
end

section
/-! PROOFS, family 41_rx_burst. A reading is its payload's four high bits and ten low ones; a `Reading` is traced back through
the states that lead to it, byte by byte; and two RX blocks in one state go on alike, whatever their old buffers hold. -/

namespace Sys2Proof.Machine

open Sys2Proof

variable {s t : State} {b : Byte}

/-! ### The reading of a payload -/

/-- The ten bits of the value are the two low bits of `b0` and then `b1` (41_rx_burst R114). -/
theorem rawValue_toNat (b0 b1 : Byte) : (rawValue b0 b1).toNat = b0.toNat % 4 * 256 + b1.toNat := by
  have hb1 : b1.toNat < 2 ^ 8 := b1.isLt
  have hhigh : b0.toNat * 256 % 1024 &&& 1023 = 2 ^ 8 * (b0.toNat % 4) := by
    rw [Nat.and_two_pow_sub_one_eq_mod _ 10]
    omega
  have hlow : b1.toNat % 1024 = b1.toNat := Nat.mod_eq_of_lt (by omega)
  calc (rawValue b0 b1).toNat
    _ = (b0.toNat * 256 % 1024 &&& 1023) ||| b1.toNat % 1024 := by
      simp [rawValue, Config.rawShift, Config.rawMask, Config.rawW, Nat.shiftLeft_eq]
    _ = 2 ^ 8 * (b0.toNat % 4) + b1.toNat := by rw [hhigh, hlow, Nat.two_pow_add_eq_or_of_lt hb1]
    _ = b0.toNat % 4 * 256 + b1.toNat := by omega

/-- The channel depends on the high nibble of `b0` alone (41_rx_burst R116). -/
theorem channelOf_congr {b0 c0 : Byte} (h : b0.toNat / 16 = c0.toNat / 16) : channelOf b0 = channelOf c0 := by
  rw [channelOf_eq, channelOf_eq, h]

/-- Of `b0` the value depends on the two low bits alone (41_rx_burst R114). -/
theorem rawValue_congr {b0 c0 : Byte} (b1 : Byte) (h : b0.toNat % 4 = c0.toNat % 4) : rawValue b0 b1 = rawValue c0 b1 :=
  BitVec.eq_of_toNat_eq (by rw [rawValue_toNat, rawValue_toNat, h])

/-- Bytes whose difference lies below bit `n` agree from bit `n` on. -/
theorem toNat_div_eq_of_xor {x y : Byte} (n : Nat) (h : (x ^^^ y).toNat / 2 ^ n = 0) :
    x.toNat / 2 ^ n = y.toNat / 2 ^ n := by
  rwa [BitVec.toNat_xor, Nat.xor_div_two_pow, Nat.xor_eq_zero_iff] at h

/-- Bytes whose difference lies from bit `n` on agree below it. -/
theorem toNat_mod_eq_of_xor {x y : Byte} (n : Nat) (h : (x ^^^ y).toNat % 2 ^ n = 0) :
    x.toNat % 2 ^ n = y.toNat % 2 ^ n := by
  rwa [BitVec.toNat_xor, Nat.xor_mod_two_pow, Nat.xor_eq_zero_iff] at h

/-- Settles O15: all three clauses are arithmetic on the value. -/
theorem rawValueOfPayload : Obligations.RawValueOfPayload := by
  refine ⟨rawValue_toNat, fun r => ?_, fun b0 b1 c0 c1 h => ?_⟩
  · have hr : r.toNat < 1024 := r.isLt
    refine ⟨BitVec.ofNat 8 (r.toNat / 256), BitVec.ofNat 8 r.toNat, BitVec.eq_of_toNat_eq ?_⟩
    rw [rawValue_toNat, BitVec.toNat_ofNat, BitVec.toNat_ofNat]
    omega
  · have hvalue := congrArg BitVec.toNat h
    rw [rawValue_toNat, rawValue_toNat] at hvalue
    have hb1 : b1.toNat < 256 := b1.isLt
    have hc1 : c1.toNat < 256 := c1.isLt
    exact ⟨by omega, BitVec.eq_of_toNat_eq (by omega)⟩

/-- Settles O17: bits 3:2 lie below the channel's bits and above the value's. -/
theorem ignoredPayloadBits : Obligations.IgnoredPayloadBits := by
  refine fun b0 c0 b1 => ⟨fun h => ?_, channelOf_congr, rawValue_congr b1⟩
  have hdiff : (b0 ^^^ c0).toNat / 16 = 0 ∧ (b0 ^^^ c0).toNat % 4 = 0 := by
    obtain h | h | h := h <;> rw [h] <;> decide
  rw [readingOf, readingOf, channelOf_congr (toNat_div_eq_of_xor 4 hdiff.1),
    rawValue_congr b1 (toNat_mod_eq_of_xor 2 hdiff.2)]

/-! ### How the burst states are entered and left -/

/-- Only `0x0C` in `Idle` leads to `BurstHeaderSeen` (41_rx_burst R110). -/
theorem feed_rs_burstHeader_iff : (feed b s).rs = .burstHeaderSeen ↔ s.rs = .idle ∧ b = 0x0C#8 := by
  constructor
  · intro h
    obtain h' | ⟨-, -, h'⟩ | ⟨hrs, hb, -⟩ | ⟨-, -, h'⟩ | ⟨-, h'⟩ := feed_rs_cases b s
    · simp [h'] at h
    · simp [h'] at h
    · exact ⟨hrs, hb⟩
    · simp [h'] at h
    · simp [h'] at h
  · rintro ⟨hrs, rfl⟩
    rw [feed_burstH hrs, State.goto_rs]

/-- Only from `BurstHeaderSeen`, but with every byte, is `BurstFirstByteSeen` reached (41_rx_burst R111). -/
theorem feed_rs_burstFirst_iff : (feed b s).rs = .burstFirstByteSeen ↔ s.rs = .burstHeaderSeen := by
  constructor
  · intro h
    obtain h' | ⟨-, -, h'⟩ | ⟨-, -, h'⟩ | ⟨-, -, h'⟩ | ⟨hrs, -⟩ := feed_rs_cases b s
    · simp [h'] at h
    · simp [h'] at h
    · simp [h'] at h
    · simp [h'] at h
    · exact hrs
  · intro hrs
    rw [feed_burstHeader hrs, State.goto_rs]

/-- The byte that led to `BurstFirstByteSeen` is in `buf[0]`. -/
theorem feed_buf0_of_burstFirst (h : (feed b s).rs = .burstFirstByteSeen) : (feed b s).buf0 = b := by
  rw [feed_burstHeader (feed_rs_burstFirst_iff.1 h), State.goto_buf0, State.storeBuf0_buf0]

/-- Only a byte in `BurstFirstByteSeen` emits a `Reading`, that of the two payload bytes (41_rx_burst R112). -/
theorem feed_emits_reading_iff {r : SensorReading} :
    (feed b s).emitted = s.emitted ++ [.reading r] ↔ s.rs = .burstFirstByteSeen ∧ r = readingOf s.buf0 b := by
  have hlast (hrs : s.rs = .burstFirstByteSeen) : (feed b s).emitted = s.emitted ++ [.reading (readingOf s.buf0 b)] := by
    rw [feed_burstFirst hrs]
    rfl
  constructor
  · intro h
    obtain ⟨_, hf, -, -⟩ | ⟨-, hf⟩ | ⟨hrs, -⟩ | ⟨-, -, hf⟩ := feed_cases b s
    · simp [hf] at h
    · simp [hf] at h
    · rw [hlast hrs] at h
      simp at h
      exact ⟨hrs, h.symm⟩
    · simp [hf] at h
  · rintro ⟨hrs, rfl⟩
    exact hlast hrs

/-- From `Idle`, `BurstFirstByteSeen` with `b0` in `buf[0]` is reached by the burst header, fed in `Idle`, and `b0`. -/
theorem feedAll_burstFirst_iff (bs : List Byte) (b0 : Byte) (h : s.rs = .idle) :
    (feedAll bs s).rs = .burstFirstByteSeen ∧ (feedAll bs s).buf0 = b0 ↔
      ∃ before, bs = before ++ [0x0C#8, b0] ∧ (feedAll before s).rs = .idle := by
  constructor
  · rintro ⟨hrs, hbuf⟩
    obtain rfl | ⟨init, b, rfl⟩ := List.eq_nil_or_concat' bs
    · simp [h] at hrs
    · have hstep : feedAll (init ++ [b]) s = feed b (feedAll init s) := feedAll_append init [b] s
      rw [hstep] at hrs hbuf
      obtain ⟨before, rfl, hidle⟩ :=
        (feedAll_rs_iff init (by simp [h]) feed_rs_burstHeader_iff).1 (feed_rs_burstFirst_iff.1 hrs)
      obtain rfl : b = b0 := (feed_buf0_of_burstFirst hrs).symm.trans hbuf
      exact ⟨before, by simp, hidle⟩
  · rintro ⟨before, rfl, hidle⟩
    rw [feedAll_append, feedAll_cons, feed_burstH hidle, feedAll_cons, feed_burstHeader rfl]
    exact ⟨rfl, rfl⟩

/-- Settles O9: the last payload byte's row, the one step that emits a `Reading`, and the way back from it to `Idle`. -/
theorem readingExactlyOnBurstFrame : Obligations.ReadingExactlyOnBurstFrame := by
  refine ⟨fun s b h => exec_row rfl (feed_burstFirst h), ?_, ?_⟩
  · intro s b t r ht hemit
    rw [rxByte_eq_next_iff] at ht
    subst ht
    exact (feed_emits_reading_iff.1 hemit).1
  · intro s bs b1 r h
    have hlast : feedAll (bs ++ [b1]) s = feed b1 (feedAll bs s) := feedAll_append bs [b1] s
    rw [hlast, feed_emits_reading_iff]
    constructor
    · rintro ⟨hrs, hr⟩
      obtain ⟨before, hbs, hidle⟩ := (feedAll_burstFirst_iff bs _ h).1 ⟨hrs, rfl⟩
      exact ⟨before, _, hbs, hidle, hr⟩
    · rintro ⟨before, b0, hbs, hidle, rfl⟩
      obtain ⟨hrs, hbuf⟩ := (feedAll_burstFirst_iff bs b0 h).2 ⟨before, hbs, hidle⟩
      exact ⟨hrs, by rw [hbuf]⟩

/-- Settles O14: `BURST` feeds the three bytes, and no frame ends within the first two. -/
theorem burstFrameFromIdle : Obligations.BurstFrameFromIdle := by
  refine fun s b0 b1 h => ⟨⟨readingOf b0 b1, rawValue_toNat b0 b1, channelOf_eq b0, ?_⟩, ?_,
    feedAll_pair_emitted 0x0C#8 b0 h⟩
  · exact (exec_eq_feedAll (i := .burst b0 b1) rfl).trans (congrArg Host.Outcome.next (feedAll_burstFrame b0 b1 h))
  · rw [feedAll_cons, feed_burstH h]
    rfl

/-- Settles O7: a header in `Idle`, a mismatch in the ack states, payload in the burst states. -/
theorem burstHeader : Obligations.BurstHeader := by
  refine fun s => ⟨fun h => exec_row rfl (feed_burstH h), fun h => ?_, fun h => ?_, fun h => ?_⟩
  · exact rxByte_eq_next_iff.2 (feed_mismatch (h.imp (⟨·, by decide⟩) (⟨·, by decide⟩)))
  · exact rxByte_eq_next_iff.2 (feed_burstHeader h)
  · exact rxByte_eq_next_iff.2 (feed_burstFirst h)

/-- Settles O8: the row of every byte after the burst header. -/
theorem firstPayloadByteStored : Obligations.FirstPayloadByteStored :=
  fun _ _ hrs => exec_row rfl (feed_burstHeader hrs)

/-! ### The old buffer -/

/-- The next state depends on the state and the byte alone. -/
theorem feed_rs_congr (b : Byte) (h : s.rs = t.rs) : (feed b s).rs = (feed b t).rs := by
  cases ht : t.rs with
  | idle =>
    rw [feed_idle (h.trans ht), feed_idle ht]
    split
    · rfl
    · split <;> rfl
  | firstAckHeaderSeen =>
    rw [feed_firstAck (h.trans ht), feed_firstAck ht]
    split <;> rfl
  | secondAckHeaderSeen =>
    rw [feed_secondAck (h.trans ht), feed_secondAck ht]
    split <;> rfl
  | burstHeaderSeen =>
    rw [feed_burstHeader (h.trans ht), feed_burstHeader ht]
    rfl
  | burstFirstByteSeen =>
    rw [feed_burstFirst (h.trans ht), feed_burstFirst ht]
    rfl

/-- The event depends on the state and the byte alone, except that of the last payload byte, on `buf[0]` too. -/
theorem rxPorts_congr (b : Byte) (h : s.rs = t.rs) (hbuf : s.rs = .burstFirstByteSeen → s.buf0 = t.buf0) :
    rxPorts s.rs s.buf0 true b = rxPorts t.rs t.buf0 true b := by
  by_cases hlast : s.rs = .burstFirstByteSeen
  · rw [hbuf hlast, h]
  · have hnone : (rxPorts s.rs s.buf0 true b).evReading = false := by simpa [rxPorts] using hlast
    rw [← h]
    exact (rxPorts_buf0_hidden t.buf0 hnone).symm

/-- Two RX blocks in one state, with one `buf[0]` where it is waiting to be read, go on alike. -/
theorem feedAll_agree (bs : List Byte) (h : s.rs = t.rs) (hbuf : s.rs = .burstFirstByteSeen → s.buf0 = t.buf0) :
    (feedAll bs s).rs = (feedAll bs t).rs ∧
      ∃ events, (feedAll bs s).emitted = s.emitted ++ events ∧ (feedAll bs t).emitted = t.emitted ++ events := by
  induction bs generalizing s t with
  | nil => exact ⟨h, [], by simp⟩
  | cons b bs ih =>
    have hrs : (feed b s).rs = (feed b t).rs := feed_rs_congr b h
    have hbuf' (hfirst : (feed b s).rs = .burstFirstByteSeen) : (feed b s).buf0 = (feed b t).buf0 := by
      rw [feed_buf0_of_burstFirst hfirst, feed_buf0_of_burstFirst (hrs ▸ hfirst)]
    obtain ⟨hend, events, hs, ht⟩ := ih hrs hbuf'
    refine ⟨hend, (rxPorts s.rs s.buf0 true b).events ++ events, ?_, ?_⟩
    · rw [feedAll_cons, hs, feed_emitted_eq_ports, List.append_assoc]
    · rw [feedAll_cons, ht, feed_emitted_eq_ports, List.append_assoc, rxPorts_congr b h hbuf]

/-- Settles O18: outside `BurstFirstByteSeen` no old `buf[0]` is waiting to be read, and a burst frame ends where it began. -/
theorem oldBufferNeverObserved : Obligations.OldBufferNeverObserved := by
  refine ⟨fun bs s t h hfirst => feedAll_agree bs h fun hrs => absurd hrs hfirst, fun s b0 b1 h => ⟨readingOf b0 b1, ?_⟩⟩
  calc (feedAll [0x0C#8, b0, b1, 0x0C#8, b0, b1] s).emitted
    _ = (feedAll [0x0C#8, b0, b1] (feedAll [0x0C#8, b0, b1] s)).emitted := rfl
    _ = s.emitted ++ [.reading (readingOf b0 b1), .reading (readingOf b0 b1)] := by
      rw [feedAll_burstFrame b0 b1 h, feedAll_burstFrame b0 b1]
      · exact List.append_assoc ..
      · exact h

end Sys2Proof.Machine
end

section
/-! PROOFS, family 42_tx_led_burst. A command of the TX block returns what `encode` gives, so the effect of each is read off
its encoding: the one frame of SetLed and of EnableBurstMode, and for all four a non-empty list of well-shaped frames or, of
SetServo alone, the error. -/

namespace Sys2Proof.Machine

open Sys2Proof

/-- Settles O20: `SETLED` is the command SetLed, whose opcode carries `on`. -/
theorem setLedFrame : Obligations.SetLedFrame := by
  intro mask on s
  cases on with
  | false => exact exec_ofCommand (.setLed mask false) s
  | true => exact exec_ofCommand (.setLed mask true) s

/-- Settles O21: `BURSTEN` is the command EnableBurstMode, whose one frame has no operand. -/
theorem enableBurstModeFrame : Obligations.EnableBurstModeFrame :=
  fun s => ⟨exec_ofCommand .enableBurstMode s, rfl⟩

/-- The one error of `encode` is `OutOfRange`, of a SetServo whose position is not in range (60_exceptions R201). -/
theorem eq_setServo_of_encodeCommand_error {c : Command} {e : ErrorKind} (h : encodeCommand c = .error e) :
    e = .outOfRange ∧ ∃ which position, c = .setServo which position ∧ ¬ servoInRange position := by
  cases c with
  | setLed mask on => cases h
  | turnStepper steps => cases h
  | setServo which position =>
    simp only [encodeCommand, encodeSetServo] at h
    split at h
    · cases h
    · next hrange =>
      cases h
      exact ⟨rfl, which, position, rfl, hrange⟩
  | enableBurstMode => cases h

/-- Settles O28: the error is SetServo's, and the prefix of the frames is part of their shape. -/
theorem commandsReturnTheirEncoding : Obligations.CommandsReturnTheirEncoding := by
  refine fun c => ⟨exec_ofCommand c, ?_⟩
  cases hc : encodeCommand c with
  | frames fs =>
    refine .inr ⟨fs, rfl, encodeCommand_frames_ne_nil hc, fun f hf => ?_⟩
    obtain ⟨h0, h1, -⟩ := everyFrameWellShaped c fs f hc hf
    exact ⟨h0, h1⟩
  | error e =>
    obtain ⟨rfl, which, position, rfl, -⟩ := eq_setServo_of_encodeCommand_error hc
    exact .inl ⟨⟨which, position, rfl⟩, rfl⟩

end Sys2Proof.Machine
end

section
/-! PROOFS, family 43_tx_servo. The range check decides whether SetServo returns its one frame or the error; that frame carries
the rounded value; and one degree moves `x` by more than one, so the rounding keeps positions apart. -/

namespace Sys2Proof.Machine

open Sys2Proof

variable {p q : Int}

/-! ### The two results of SetServo -/

theorem encodeSetServo_inRange (which : Servo) (hlo : -90 ≤ p) (hhi : p ≤ 90) :
    encodeSetServo which p = .frames [commandFrame (servoOpcode which) (servoPayload p)] :=
  if_pos ((servoInRange_iff p).2 ⟨hlo, hhi⟩)

theorem encodeSetServo_outOfRange (which : Servo) (h : p < -90 ∨ 90 < p) :
    encodeSetServo which p = .error .outOfRange := by
  refine if_neg fun hrange => ?_
  obtain ⟨hlo, hhi⟩ := (servoInRange_iff p).1 hrange
  omega

/-- `SERVO` is the command SetServo: it returns the encoding and changes nothing else (43_tx_servo R140). -/
theorem exec_servo (which : Servo) (p : Int) (s : State) :
    exec (.servo which p) s = .next (s.returnTx (encodeSetServo which p)) :=
  exec_ofCommand (.setServo which p) s

/-- Settles O23: the range check, bounds inclusive, chooses between the error and the one frame. -/
theorem setServoOutOfRange : Obligations.SetServoOutOfRange := by
  refine fun which position s => ⟨fun hout => ?_, fun hlo hhi =>
    ⟨commandFrame (servoOpcode which) (servoPayload position), ?_⟩⟩
  · rw [exec_servo, encodeSetServo_outOfRange which hout]
    rfl
  · rw [exec_servo, encodeSetServo_inRange which hlo hhi]
    rfl

/-! ### The one frame -/

theorem servoOpcode_eq (which : Servo) : servoOpcode which = if which = .A then 0xD0#8 else 0xD1#8 := by
  cases which <;> rfl

/-- R142 with decision D7: `servoRound p` is `x = 34 (p + 90) / 24` rounded to the nearest integer, a tie down. -/
theorem servoRound_nearest (p : Int) :
    34 * (p + 90) - 12 ≤ 24 * servoRound p ∧ 24 * servoRound p < 34 * (p + 90) + 12 := by
  rw [servoRound_eq]
  omega

theorem servoRound_bounds (hlo : -90 ≤ p) (hhi : p ≤ 90) : 0 ≤ servoRound p ∧ servoRound p ≤ 255 := by
  rw [servoRound_eq]
  omega

/-- Settles O22: the rounded value is the one the model computes, and the frame is that of a position in range. -/
theorem setServoFrame : Obligations.SetServoFrame := by
  intro which position s hlo hhi
  obtain ⟨hdown, hup⟩ := servoRound_nearest position
  obtain ⟨hmin, hmax⟩ := servoRound_bounds hlo hhi
  refine ⟨servoRound position, hdown, hup, hmin, hmax, ?_⟩
  rw [exec_servo, encodeSetServo_inRange which hlo hhi, servoOpcode_eq]
  rfl

/-! ### The mapping and its inverse -/

/-- One degree moves `x` by `17/12`, so the rounded value by one at least. -/
theorem servoPos_strictMono : StrictMono servoPos := by
  intro p q hpq
  rw [servoPos_eq, servoPos_eq]
  omega

/-- Each position in range is read back from its payload byte, so no two of them share one (43_tx_servo R146). -/
theorem servoPayload_inj (hp : -90 ≤ p ∧ p ≤ 90) (hq : -90 ≤ q ∧ q ≤ 90) (h : servoPayload p = servoPayload q) : p = q := by
  have hback : some p = some q := by
    rw [← positionOfPayload_servoPayload hp.1 hp.2, h, positionOfPayload_servoPayload hq.1 hq.2]
  exact Option.some.inj hback

/-- Settles O25: the positions increase with the degrees, the payload bytes are distinct by the inverse, and the inverse is
exact. -/
theorem servoPayloadsDistinct : Obligations.ServoPayloadsDistinct := by
  refine ⟨fun p q hlo hpq hhi => ⟨servoPos_strictMono hpq, fun h => hpq.ne ?_⟩, fun b p => ?_⟩
  · exact servoPayload_inj ⟨hlo, hpq.le.trans hhi⟩ ⟨hlo.trans hpq.le, hhi⟩ h
  · rw [positionOfPayload_eq_some_iff, eq_comm (a := b)]

end Sys2Proof.Machine
end

section
/-! PROOFS, family 44_tx_stepper. The frames of a turn are read off the closed form of its split. For the sequential formulation
the closed form is unrolled as the loop runs: a turn of at most 127 steps is its one frame, and a longer one is a full frame
followed by the turn of the steps that are left. -/

namespace Sys2Proof.Machine

open Sys2Proof

variable {steps c : Int}

/-! ### The counts of a turn -/

/-- The count of a full frame is 127 or −127, by the sign of the turn (44_tx_stepper R151). -/
theorem sgn_mul_stepChunk (steps : Int) : sgn steps * Config.stepChunk = if 0 ≤ steps then 127 else -127 := by
  unfold sgn
  split <;> rfl

theorem stepperFrameCount_eq (steps : Int) : stepperFrameCount steps = max 1 ((steps.natAbs + 126) / 127) := rfl

theorem stepperFrameCount_pos (steps : Int) : 0 < stepperFrameCount steps := Nat.le_max_left ..

@[simp] theorem stepperCounts_length (steps : Int) : (stepperCounts steps).length = stepperFrameCount steps := by
  simp [stepperCounts, Nat.sub_add_cancel (stepperFrameCount_pos steps)]

/-- The last frame carries what the full frames leave over, so no step is lost (44_tx_stepper R150). -/
theorem stepperCounts_sum (steps : Int) : (stepperCounts steps).sum = steps := by
  simp only [stepperCounts, List.sum_append, List.sum_replicate, List.sum_singleton, nsmul_eq_mul]
  ring

/-- Every frame but the last is full (44_tx_stepper R151). -/
theorem natAbs_of_mem_dropLast_stepperCounts (h : c ∈ (stepperCounts steps).dropLast) : c.natAbs = 127 := by
  rw [stepperCounts, List.dropLast_concat] at h
  rw [List.eq_of_mem_replicate h, sgn_mul_stepChunk]
  split <;> rfl

/-- A full frame is followed by another only if steps remain for it, so each count has the sign of the turn and is 0 only in
the turn of 0 steps (44_tx_stepper R153). -/
theorem stepperCounts_sign (h : c ∈ stepperCounts steps) :
    (0 ≤ steps → 0 ≤ c) ∧ (steps ≤ 0 → c ≤ 0) ∧ (c = 0 → steps = 0) := by
  simp only [stepperCounts, stepperFrameCount_eq, sgn_mul_stepChunk, List.mem_append, List.mem_replicate,
    List.mem_singleton] at h
  obtain ⟨hfull, rfl⟩ | rfl := h
  · split <;> omega
  · split <;> omega

/-- Settles O26: the counts are those of the closed form. -/
theorem turnStepperFrames : Obligations.TurnStepperFrames := by
  refine fun steps s => ⟨stepperCounts steps, exec_ofCommand (.turnStepper steps) s, stepperCounts_sum steps,
    fun c hc => ?_, fun c hc => natAbs_of_mem_dropLast_stepperCounts hc, stepperCounts_length steps⟩
  obtain ⟨hlo, hhi⟩ := stepperCounts_bounds hc
  exact ⟨hlo, hhi, stepperCounts_sign hc⟩

/-! ### The sequential formulation -/

theorem stepperFrameCount_of_le (h : steps.natAbs ≤ 127) : stepperFrameCount steps = 1 := by
  rw [stepperFrameCount_eq]
  omega

/-- One full frame less to turn is one frame less to send. -/
theorem stepperFrameCount_of_lt (h : 127 < steps.natAbs) :
    stepperFrameCount steps = stepperFrameCount (steps - sgn steps * Config.stepChunk) + 1 := by
  rw [sgn_mul_stepChunk, stepperFrameCount_eq, stepperFrameCount_eq]
  split <;> omega

/-- The steps left after a full frame keep the sign of the turn. -/
theorem sgn_sub_stepChunk (h : 127 < steps.natAbs) : sgn (steps - sgn steps * Config.stepChunk) = sgn steps := by
  rw [sgn_mul_stepChunk]
  unfold sgn
  split_ifs <;> omega

/-- A turn of at most 127 steps is its one frame (44_tx_stepper R153). -/
theorem stepperCounts_of_le (h : steps.natAbs ≤ 127) : stepperCounts steps = [steps] := by
  simp [stepperCounts, stepperFrameCount_of_le h]

/-- A longer turn is a full frame, then the turn of the steps that are left. -/
theorem stepperCounts_of_lt (h : 127 < steps.natAbs) :
    stepperCounts steps = sgn steps * Config.stepChunk :: stepperCounts (steps - sgn steps * Config.stepChunk) := by
  obtain ⟨k, hk⟩ := Nat.exists_eq_add_one.2 (stepperFrameCount_pos (steps - sgn steps * Config.stepChunk))
  simp only [stepperCounts, stepperFrameCount_of_lt h, sgn_sub_stepChunk h, hk, Nat.add_sub_cancel, List.replicate_succ,
    List.cons_append]
  congr 3
  push_cast
  ring

theorem clampChunk_of_le (h : steps.natAbs ≤ 127) : clampChunk steps = steps := by
  simp only [clampChunk, Config.stepChunk]
  split_ifs <;> omega

theorem clampChunk_of_lt (h : 127 < steps.natAbs) : clampChunk steps = sgn steps * Config.stepChunk := by
  rw [sgn_mul_stepChunk]
  simp only [clampChunk, Config.stepChunk]
  split_ifs <;> omega

theorem stepperLoop_of_le (fuel : Nat) (h : steps.natAbs ≤ 127) : stepperLoop (fuel + 1) steps = [(steps, true)] := by
  simp [stepperLoop, clampChunk_of_le h]

theorem stepperLoop_of_lt (fuel : Nat) (h : 127 < steps.natAbs) :
    stepperLoop (fuel + 1) steps =
      (sgn steps * Config.stepChunk, false) :: stepperLoop fuel (steps - sgn steps * Config.stepChunk) := by
  have hne : steps ≠ sgn steps * Config.stepChunk := by
    rw [sgn_mul_stepChunk]
    split <;> omega
  simp only [stepperLoop, clampChunk_of_lt h, if_neg hne]

/-- A full frame brings the rest of the turn nearer to 0, so fuel that was enough for the turn is enough for the rest. -/
theorem natAbs_sub_stepChunk_lt (h : 127 < steps.natAbs) :
    (steps - sgn steps * Config.stepChunk).natAbs < steps.natAbs := by
  rw [sgn_mul_stepChunk]
  split <;> omega

/-- With fuel beyond the steps left, the loop gives the counts of the closed form, the last one marked (44_tx_stepper R156). -/
theorem stepperLoop_split (fuel : Nat) (steps : Int) (hfuel : steps.natAbs < fuel) :
    (stepperLoop fuel steps).map Prod.fst = stepperCounts steps ∧
    (stepperLoop fuel steps).map Prod.snd = List.replicate (stepperFrameCount steps - 1) false ++ [true] := by
  induction fuel generalizing steps with
  | zero => omega
  | succ fuel ih =>
    obtain hone | hmore := le_or_gt steps.natAbs 127
    · simp [stepperLoop_of_le fuel hone, stepperCounts_of_le hone, stepperFrameCount_of_le hone]
    · obtain ⟨hcounts, hmarks⟩ := ih _ ((natAbs_sub_stepChunk_lt hmore).trans_le (Nat.le_of_lt_succ hfuel))
      obtain ⟨k, hk⟩ := Nat.exists_eq_add_one.2 (stepperFrameCount_pos (steps - sgn steps * Config.stepChunk))
      rw [stepperLoop_of_lt fuel hmore, stepperCounts_of_lt hmore, stepperFrameCount_of_lt hmore]
      simp [hcounts, hmarks, hk, List.replicate_succ]

/-- Settles O27: the fuel of the sequential formulation is one pass more than there are steps. -/
theorem sequentialSplitAgrees : Obligations.SequentialSplitAgrees := by
  intro steps
  rw [stepperCounts_length]
  exact stepperLoop_split (steps.natAbs + 1) steps (Nat.lt_succ_self _)

end Sys2Proof.Machine
end

section
/-! PROOFS, family 45_environment. Each operation of the environment has one equation per case; a step moves the environment by
one of them, by routing events, or by a construction. The silent send is an induction on its retries, over a wait that is an
induction on its ticks. -/

namespace Sys2Proof.Machine

open Sys2Proof

variable {P : SenderParams} {e : Env} {s t : State}

/-! ### The store -/

/-- Settles O47: the conversions by channel, and the two of them as arithmetic on the raw value. -/
theorem readingConversion : Obligations.ReadingConversion :=
  ⟨fun _ => ⟨rfl, rfl, fun _ => rfl, rfl, rfl, fun _ => rfl⟩,
    fun r => ⟨rfl, Nat.le_of_lt_succ (percent_lt r), beq_iff_eq⟩,
    fun _ _ h => Nat.div_le_div_right (Nat.mul_le_mul_right _ h)⟩

theorem convert_unmapped {r : SensorReading} {c : BitVec Config.chanW} (h : r.channel = .unmapped c) : convert r = none := by
  simp [convert, h]

/-- A conversion has the kind of its channel's slot, so writing it takes effect (45_environment R176). -/
theorem read_write_same {r : SensorReading} {v : SensorValue} (h : convert r = some v) (st : SensorStore) :
    SensorStore.read (SensorStore.write st r.channel v) r.channel = some v := by
  obtain ⟨ch, raw⟩ := r
  cases ch with
  | resistiveInput i =>
    cases h
    fin_cases i <;> rfl
  | unmapped c => cases h
  | _ => cases h; rfl

/-- Each channel is independent (45_environment R176): whichever slot is written, a read of another channel looks at another
slot. -/
theorem read_write_other {ch ch' : SensorChannel} (h : ch' ≠ ch) (v : SensorValue) (st : SensorStore) :
    SensorStore.read (SensorStore.write st ch v) ch' = SensorStore.read st ch' := by
  fun_cases SensorStore.write st ch v
  case case9 => rfl
  all_goals fun_cases SensorStore.read st ch' <;> simp_all [SensorStore.read]

theorem applyReading_of_none {r : SensorReading} (h : convert r = none) : applyReading r e = e := by
  simp [applyReading, h]

theorem applyReading_of_same {r : SensorReading} {v : SensorValue} (h : convert r = some v)
    (hsame : SensorStore.read e.store r.channel = some v) : applyReading r e = e := by
  simp [applyReading, h, hsame]

theorem applyReading_of_changed {r : SensorReading} {v : SensorValue} (h : convert r = some v)
    (hnew : SensorStore.read e.store r.channel ≠ some v) :
    applyReading r e = ({ e with store := SensorStore.write e.store r.channel v }).notify ⟨r.channel, v⟩ := by
  simp [applyReading, h, hnew]

/-- A reading applied is the value stored (45_environment R176). -/
theorem applyReading_read {r : SensorReading} {v : SensorValue} (h : convert r = some v) (e : Env) :
    SensorStore.read (applyReading r e).store r.channel = some v := by
  by_cases hsame : SensorStore.read e.store r.channel = some v
  · rw [applyReading_of_same h hsame, hsame]
  · rw [applyReading_of_changed h hsame, notify_store, read_write_same h]

theorem applyReading_read_other {r : SensorReading} {ch : SensorChannel} (h : ch ≠ r.channel) (e : Env) :
    SensorStore.read (applyReading r e).store ch = SensorStore.read e.store ch := by
  obtain hkeep | ⟨v, -, -, hnew⟩ := applyReading_cases r e
  · rw [hkeep]
  · rw [hnew, notify_store, read_write_other h]

/-- Settles O48: by whether the converted value is the stored one; the second application finds it stored. -/
theorem storeNotifiesOnChangeOnly : Obligations.StoreNotifiesOnChangeOnly := by
  intro r e
  refine ⟨fun ⟨c, hc⟩ => applyReading_of_none (convert_unmapped hc), fun v hv => ?_,
    fun ch hch => applyReading_read_other hch e, fun P ch => rfl⟩
  have hstored := applyReading_read hv e
  refine ⟨hstored, ?_⟩
  rw [applyReading_of_same hv hstored]
  by_cases hsame : SensorStore.read e.store r.channel = some v
  · simp [applyReading_of_same hv hsame, hsame]
  · simp [applyReading_of_changed hv hsame, hsame]

/-! ### The start of a send -/

/-- A send with the transport writing is its first frame on the stream, and a wait (45_environment R179). -/
theorem startSend_of_writes {src : SendSource} (f : Frame) (rest : List Frame) (hctrl : e.ctrl ≠ .stopped)
    (hwrites : e.writeFails = false) :
    startSend P src (f :: rest) e =
      { e with
        txStream := e.txStream ++ f.bytes
        pending := some ⟨f, rest, 0, .waiting (e.now + P.ackWindow), src⟩ } :=
  attempt_of_canWrite _ ((canWrite_iff e).2 ⟨hctrl, hwrites⟩)

theorem canWrite_of_writeFails (h : e.writeFails = true) : e.canWrite = false := by
  simp [Env.canWrite, h]

/-- A send whose first write fails ends there, and the controller stops (45_environment R194). -/
theorem startSend_of_fails {src : SendSource} (f : Frame) (rest : List Frame) (hfails : e.writeFails = true) :
    startSend P src (f :: rest) e =
      ({ e with writeFails := false, ctrl := .stopped }).finish src (.failed .transportClosed) :=
  attempt_of_not_canWrite _ (canWrite_of_writeFails hfails)

/-- The same of a caller's send, with its result in sight. -/
theorem startSend_caller_fails {c : Command} (f : Frame) (rest : List Frame) (hfree : e.pending = none)
    (hfails : e.writeFails = true) :
    startSend P (.caller c) (f :: rest) e =
      { e with
        writeFails := false, ctrl := .stopped, ackSlot := false
        results := e.results ++ [⟨c, .failed .transportClosed⟩] } := by
  rw [startSend_of_fails f rest hfails]
  simp [Env.finish, hfree]

/-! ### Commands issued -/

theorem issueCommand_starting (c : Command) (h : e.ctrl = .starting) :
    issueCommand P c e = e.report c (.failed .notReady) := by
  simp [issueCommand, h]

theorem issueCommand_stopped (c : Command) (h : e.ctrl = .stopped) : issueCommand P c e = e.reportStopped c := by
  simp [issueCommand, h]

theorem issueCommand_error {c : Command} {err : ErrorKind} (h : e.ctrl = .ready) (hc : encodeCommand c = .error err) :
    issueCommand P c e = e.report c (.failed err) := by
  simp [issueCommand, h, hc]

theorem issueCommand_free {c : Command} {fs : List Frame} (h : e.ctrl = .ready) (hc : encodeCommand c = .frames fs)
    (hfree : e.pending = none) : issueCommand P c e = startSend P (.caller c) fs e := by
  simp [issueCommand, h, hc, hfree]

theorem issueCommand_busy {c : Command} {fs : List Frame} {p : PendingSend} (h : e.ctrl = .ready)
    (hc : encodeCommand c = .frames fs) (hbusy : e.pending = some p) :
    issueCommand P c e = { e with blocked := e.blocked ++ [⟨c, fs⟩] } := by
  simp [issueCommand, h, hc, hbusy]

/-- Settles O52: readiness is looked at before anything else. -/
theorem notReadyBeforeHandshake : Obligations.NotReadyBeforeHandshake :=
  fun _ c _ h => issueCommand_starting c h

/-! ### Blocked callers -/

theorem grantBlocked_of_nobody {k : Nat} (h : e.pending ≠ none ∨ e.blocked[k]? = none) : grantBlocked P k e = e := by
  unfold grantBlocked
  split
  · next hpending hcall => simp [hpending, hcall] at h
  · rfl

theorem grantBlocked_stopped {k : Nat} {call : BlockedCall} (hfree : e.pending = none) (hcall : e.blocked[k]? = some call)
    (h : e.ctrl = .stopped) :
    grantBlocked P k e = ({ e with blocked := e.blocked.eraseIdx k }).reportStopped call.command := by
  simp [grantBlocked, hfree, hcall, h]

theorem grantBlocked_running {k : Nat} {call : BlockedCall} {fs : List Frame} (hfree : e.pending = none)
    (hcall : e.blocked[k]? = some call) (hfs : call.frames = fs) (h : e.ctrl ≠ .stopped) :
    grantBlocked P k e = startSend P (.caller call.command) fs { e with blocked := e.blocked.eraseIdx k } := by
  simp [grantBlocked, hfree, hcall, hfs, h]

/-- Settles O53: a command's send and a granted one are the same `startSend`, on a transport that writes or fails. -/
theorem readyControllerSends : Obligations.ReadyControllerSends := by
  refine ⟨fun P c e hready => ⟨fun err hc => issueCommand_error hready hc, fun f fs hc hfree hwrites => ?_,
    fun f fs hc hfree hfails => ?_, fun fs p hc hbusy => issueCommand_busy hready hc hbusy⟩,
    fun P k e => ⟨grantBlocked_of_nobody, fun call hfree hcall => ⟨fun hstopped => ?_,
      fun f fs hfs hrun hwrites => ?_, fun f fs hfs hrun hfails => ?_⟩⟩⟩
  · exact (issueCommand_free hready hc hfree).trans (startSend_of_writes f fs (by simp [hready]) hwrites)
  · exact (issueCommand_free hready hc hfree).trans (startSend_caller_fails f fs hfree hfails)
  · exact ⟨_, grantBlocked_stopped hfree hcall hstopped⟩
  · exact (grantBlocked_running hfree hcall hfs hrun).trans (startSend_of_writes f fs hrun hwrites)
  · exact (grantBlocked_running hfree hcall hfs hrun).trans (startSend_caller_fails f fs hfree hfails)

/-! ### The sender's turn -/

theorem senderTurn_silent {p : PendingSend} {d : Nat} (hp : e.pending = some p) (hphase : p.phase = .waiting d)
    (hslot : e.ackSlot = false) : senderTurn P e = e := by
  simp [senderTurn, hp, hphase, hslot]

theorem senderTurn_acked_last {p : PendingSend} {d : Nat} (hp : e.pending = some p) (hphase : p.phase = .waiting d)
    (hslot : e.ackSlot = true) (hrest : p.rest = []) : senderTurn P e = e.finish p.source .ok := by
  simp [senderTurn, hp, hphase, hslot, frameAcked, hrest]

theorem senderTurn_acked_next {p : PendingSend} {d : Nat} {g : Frame} {rest : List Frame} (hp : e.pending = some p)
    (hphase : p.phase = .waiting d) (hslot : e.ackSlot = true) (hrest : p.rest = g :: rest) :
    senderTurn P e = attempt P { p with frame := g, rest := rest, retries := 0 } { e with ackSlot := false } := by
  simp [senderTurn, hp, hphase, hslot, frameAcked, hrest]

theorem senderTurn_retry {p : PendingSend} (hp : e.pending = some p) (hphase : p.phase = .lapsed)
    (hbudget : p.retries < P.maxRetries) : senderTurn P e = attempt P { p with retries := p.retries + 1 } e := by
  simp [senderTurn, hp, hphase, hbudget]

theorem senderTurn_giveUp {p : PendingSend} (hp : e.pending = some p) (hphase : p.phase = .lapsed)
    (hspent : P.maxRetries ≤ p.retries) : senderTurn P e = e.finish p.source (.failed .notResponding) := by
  simp [senderTurn, hp, hphase, Nat.not_lt.2 hspent]

theorem routeAck_waiting {p : PendingSend} {d : Nat} (hp : e.pending = some p) (hphase : p.phase = .waiting d) :
    routeAck P e = { e with ackSlot := true } := by
  simp [routeAck, hp, hphase]

theorem routeAck_lapsed {p : PendingSend} (hp : e.pending = some p) (hphase : p.phase = .lapsed) :
    routeAck P e = if P.ackSlotSticky = true then { e with ackSlot := true } else e := by
  simp [routeAck, hp, hphase]

/-- A retry on a transport that writes. -/
theorem senderTurn_rewrites {p : PendingSend} (hp : e.pending = some p) (hphase : p.phase = .lapsed)
    (hbudget : p.retries < P.maxRetries) (hctrl : e.ctrl ≠ .stopped) (hwrites : e.writeFails = false) :
    senderTurn P e =
      { e with
        txStream := e.txStream ++ p.frame.bytes
        pending := some { p with retries := p.retries + 1, phase := .waiting (e.now + P.ackWindow) } } :=
  (senderTurn_retry hp hphase hbudget).trans (attempt_of_canWrite _ ((canWrite_iff e).2 ⟨hctrl, hwrites⟩))

/-- Settles O50: the routed `Ack` fills the slot, and the turn that finds it filled goes on to the next frame or to the end. -/
theorem anyAckAdvancesTheSend : Obligations.AnyAckAdvancesTheSend := by
  refine fun P e p hp => ⟨fun d hphase => ?_, fun hphase => ⟨routeAck_lapsed hp hphase, senderTurn_rewrites hp hphase⟩⟩
  rw [routeAck_waiting hp hphase]
  refine ⟨fun c hsource hrest => ?_, fun hsource hrest hctrl => ?_, fun g rest hrest hctrl hwrites => ?_⟩
  · rw [senderTurn_acked_last (e := { e with ackSlot := true }) hp hphase rfl hrest, hsource]
    rfl
  · rw [senderTurn_acked_last (e := { e with ackSlot := true }) hp hphase rfl hrest, hsource]
    simp [Env.finish, hctrl]
  · rw [senderTurn_acked_next (e := { e with ackSlot := true }) hp hphase rfl hrest]
    exact attempt_of_canWrite _ ((canWrite_iff _).2 ⟨hctrl, hwrites⟩)

/-- A retry or a next frame is one attempt, on an environment that differs in the slot alone. -/
theorem senderTurn_attempts {p : PendingSend} (hp : e.pending = some p)
    (h : (p.phase = .lapsed ∧ p.retries < P.maxRetries) ∨ ∃ d, p.phase = .waiting d ∧ e.ackSlot = true ∧ p.rest ≠ []) :
    ∃ q slot, q.source = p.source ∧ senderTurn P e = attempt P q { e with ackSlot := slot } := by
  obtain ⟨hphase, hbudget⟩ | ⟨d, hphase, hslot, hrest⟩ := h
  · exact ⟨{ p with retries := p.retries + 1 }, e.ackSlot, rfl, senderTurn_retry hp hphase hbudget⟩
  · obtain ⟨g, rest, hrest⟩ := List.exists_cons_of_ne_nil hrest
    exact ⟨{ p with frame := g, rest := rest, retries := 0 }, false, rfl, senderTurn_acked_next hp hphase hslot hrest⟩

/-- Settles O55: the attempt finds that it cannot write, and ends the send. -/
theorem failedWriteStopsTheController : Obligations.FailedWriteStopsTheController := by
  refine ⟨fun P e => rfl, fun P e p hp hfails hturn => ?_⟩
  obtain ⟨q, slot, hsource, hattempt⟩ := senderTurn_attempts hp hturn
  have hcannot : ({ e with ackSlot := slot } : Env).canWrite = false := hfails.elim canWrite_stopped canWrite_of_writeFails
  have hend : envStep P .sender e =
      ({ e with ackSlot := slot, writeFails := false, ctrl := .stopped }).finish p.source (.failed .transportClosed) := by
    rw [← hsource]
    exact hattempt.trans (attempt_of_not_canWrite q hcannot)
  rw [hend]
  cases p.source with
  | handshake => simp [Env.finish]
  | caller c => simp [Env.finish]

/-! ### The handshake -/

/-- The handshake is the send of the one frame of EnableBurstMode (45_environment R187). -/
theorem startHandshake_starting (hctrl : e.ctrl = .starting) (hsent : e.handshakeSent = false) (hfree : e.pending = none) :
    startHandshake P e =
      startSend P .handshake [commandFrame Config.opBurstEn Config.burstEnPayload] { e with handshakeSent := true } :=
  if_pos ⟨hctrl, hsent, hfree⟩

theorem startHandshake_not_due (h : e.ctrl ≠ .starting ∨ e.handshakeSent = true ∨ e.pending ≠ none) :
    startHandshake P e = e := by
  refine if_neg ?_
  rintro ⟨hctrl, hsent, hfree⟩
  simp [hctrl, hsent, hfree] at h

/-- Settles O54: the handshake is a send like any other, whose result the controller keeps. -/
theorem handshakeSendsBurstEnable : Obligations.HandshakeSendsBurstEnable := by
  refine ⟨fun P e hctrl => ⟨fun hsent hfree hwrites => ?_, fun hsent hfree hfails => ?_, fun p hp hsource hphase hspent => ?_⟩,
    fun P e => startHandshake_not_due⟩
  · exact (startHandshake_starting hctrl hsent hfree).trans
      (startSend_of_writes (e := { e with handshakeSent := true }) _ _ (by simp [hctrl]) hwrites)
  · refine (startHandshake_starting hctrl hsent hfree).trans
      ((startSend_of_fails (e := { e with handshakeSent := true }) _ _ hfails).trans ?_)
    simp [Env.finish, hfree]
  · refine (senderTurn_giveUp hp hphase hspent).trans ?_
    simp [hsource, Env.finish]

/-! ### A send that meets only silence -/

theorem tick_early {p : PendingSend} {d : Nat} (hp : e.pending = some p) (hphase : p.phase = .waiting d)
    (hearly : e.now + 1 < d) : tick e = { e with now := e.now + 1 } := by
  simp [tick, hp, hphase, Nat.not_le.2 hearly]

theorem tick_due {p : PendingSend} {d : Nat} (hp : e.pending = some p) (hphase : p.phase = .waiting d)
    (hslot : e.ackSlot = false) (hdue : d ≤ e.now + 1) :
    tick e = { e with now := e.now + 1, pending := some { p with phase := .lapsed } } := by
  simp [tick, hp, hphase, hslot, hdue]

/-- A wait without an `Ack` goes on until the tick that reaches its deadline, which ends it. -/
theorem ticks_to_deadline {p : PendingSend} {d : Nat} (k : Nat) (hp : e.pending = some p) (hphase : p.phase = .waiting d)
    (hslot : e.ackSlot = false) (hearly : k = 0 ∨ e.now + k < d) (hdue : d ≤ e.now + (k + 1)) :
    ticks (k + 1) e = { e with now := e.now + (k + 1), pending := some { p with phase := .lapsed } } := by
  induction k generalizing e with
  | zero => exact tick_due hp hphase hslot hdue
  | succ k ih =>
    have hbefore : tick e = { e with now := e.now + 1 } := tick_early hp hphase (by omega)
    calc ticks (k + 2) e
      _ = ticks (k + 1) { e with now := e.now + 1 } := by rw [← hbefore]; rfl
      _ = { e with now := e.now + 1 + (k + 1), pending := some { p with phase := .lapsed } } :=
        ih hp hslot (by dsimp only; omega) (by dsimp only; omega)
      _ = { e with now := e.now + (k + 2), pending := some { p with phase := .lapsed } } := by
        rw [Nat.add_assoc, Nat.add_comm 1]

/-- A wait of a whole window; a window of 0 takes one tick (log 9). -/
theorem ticks_window {p : PendingSend} (hp : e.pending = some p) (hphase : p.phase = .waiting (e.now + P.ackWindow))
    (hslot : e.ackSlot = false) :
    ticks (max 1 P.ackWindow) e =
      { e with now := e.now + max 1 P.ackWindow, pending := some { p with phase := .lapsed } } := by
  obtain ⟨k, hk⟩ : ∃ k, max 1 P.ackWindow = k + 1 := ⟨max 1 P.ackWindow - 1, by omega⟩
  rw [hk]
  exact ticks_to_deadline k hp hphase hslot (by omega) (by omega)

theorem finish_of_pending (src : SendSource) (r : CmdResult) (p : Option PendingSend) (e : Env) :
    ({ e with pending := p }).finish src r = e.finish src r := by
  cases src <;> rfl

/-- The environment after a silent round with a retry left: the frame is written again, and waits anew. -/
def silentRetry (P : SenderParams) (p : PendingSend) (e : Env) : Env :=
  { e with
    now := e.now + max 1 P.ackWindow
    txStream := e.txStream ++ p.frame.bytes
    pending := some { p with
      retries := p.retries + 1, phase := .waiting (e.now + max 1 P.ackWindow + P.ackWindow) } }

theorem silentRound_retry {p : PendingSend} (hctrl : e.ctrl ≠ .stopped) (hwrites : e.writeFails = false)
    (hslot : e.ackSlot = false) (hp : e.pending = some p) (hphase : p.phase = .waiting (e.now + P.ackWindow))
    (hbudget : p.retries < P.maxRetries) : silentRound P e = silentRetry P p e := by
  rw [silentRound, ticks_window hp hphase hslot]
  exact senderTurn_rewrites (p := { p with phase := .lapsed }) rfl rfl hbudget hctrl hwrites

/-- A silent round with the retry budget spent gives the send up (45_environment R182). -/
theorem silentRound_giveUp {p : PendingSend} (hslot : e.ackSlot = false) (hp : e.pending = some p)
    (hphase : p.phase = .waiting (e.now + P.ackWindow)) (hspent : P.maxRetries ≤ p.retries) :
    silentRound P e = ({ e with now := e.now + max 1 P.ackWindow }).finish p.source (.failed .notResponding) := by
  rw [silentRound, ticks_window hp hphase hslot, senderTurn_giveUp (p := { p with phase := .lapsed }) rfl rfl hspent]
  exact finish_of_pending _ _ _ { e with now := e.now + max 1 P.ackWindow }

/-- From a wait with `k` retries left, silence writes the frame `k` times more and then gives the send up (45_environment
R181, R182). -/
theorem silentRounds_spend {p : PendingSend} (k : Nat) (hctrl : e.ctrl ≠ .stopped) (hwrites : e.writeFails = false)
    (hslot : e.ackSlot = false) (hp : e.pending = some p) (hphase : p.phase = .waiting (e.now + P.ackWindow))
    (hbudget : p.retries + k = P.maxRetries) :
    silentRounds P (k + 1) e =
      ({ e with
        now := e.now + (k + 1) * max 1 P.ackWindow
        txStream := e.txStream ++ (List.replicate k p.frame.bytes).flatten }).finish p.source (.failed .notResponding) := by
  induction k generalizing e p with
  | zero => simpa [silentRounds] using silentRound_giveUp hslot hp hphase hbudget.ge
  | succ k ih =>
    rw [silentRounds, silentRound_retry hctrl hwrites hslot hp hphase (by omega),
      ih (e := silentRetry P p e) hctrl hwrites hslot rfl rfl (by dsimp only; omega)]
    have hnow : e.now + max 1 P.ackWindow + (k + 1) * max 1 P.ackWindow = e.now + (k + 1 + 1) * max 1 P.ackWindow := by ring
    cases hs : p.source <;> simp [silentRetry, Env.finish, List.replicate_succ, hnow, hs]

/-- Settles O49: the wait tick by tick, and the retries by induction on the budget. -/
theorem silentSendWritesNPlusOneTimes : Obligations.SilentSendWritesNPlusOneTimes := by
  refine ⟨fun P e p d hp hphase hslot => ⟨senderTurn_silent hp hphase hslot, tick_early hp hphase, tick_due hp hphase hslot⟩,
    fun P c f later e hctrl hwrites hfree hslot => ?_⟩
  rw [startSend_of_writes f later hctrl hwrites]
  have hsilent := silentRounds_spend (P := P) (e := { e with
    txStream := e.txStream ++ f.bytes
    pending := some ⟨f, later, 0, .waiting (e.now + P.ackWindow), .caller c⟩ })
    P.maxRetries hctrl hwrites hslot rfl rfl (Nat.zero_add _)
  rw [hsilent]
  simp [Env.finish, List.replicate_succ]

/-! ### What each operation can do -/

/-- A command gets its result at once, or waits for the section, or its send starts. -/
theorem issueCommand_cases (P : SenderParams) (c : Command) (e : Env) :
    (∃ r draws, issueCommand P c e = { e with results := e.results ++ [⟨c, r⟩], draws := draws }) ∨
    (∃ fs p, e.ctrl = .ready ∧ encodeCommand c = .frames fs ∧ e.pending = some p ∧
      issueCommand P c e = { e with blocked := e.blocked ++ [⟨c, fs⟩] }) ∨
    (∃ fs, e.ctrl = .ready ∧ encodeCommand c = .frames fs ∧ e.pending = none ∧
      issueCommand P c e = startSend P (.caller c) fs e) := by
  unfold issueCommand
  split
  · exact .inl ⟨_, e.draws, rfl⟩
  · exact .inl ⟨_, _, rfl⟩
  · next hctrl =>
    split
    · exact .inl ⟨_, e.draws, rfl⟩
    · next fs hc =>
      split
      · next hp => exact .inr (.inr ⟨fs, hctrl, hc, hp, rfl⟩)
      · next p hp => exact .inr (.inl ⟨fs, p, hctrl, hc, hp, rfl⟩)

/-- A grant does nothing, or one caller leaves the queue: with a failure once the controller stopped, else into its send. -/
theorem grantBlocked_cases (P : SenderParams) (k : Nat) (e : Env) :
    grantBlocked P k e = e ∨
    (∃ call, e.pending = none ∧ e.blocked[k]? = some call ∧ e.ctrl = .stopped ∧
      grantBlocked P k e = ({ e with blocked := e.blocked.eraseIdx k }).reportStopped call.command) ∨
    (∃ call, e.pending = none ∧ e.blocked[k]? = some call ∧ e.ctrl ≠ .stopped ∧
      grantBlocked P k e =
        startSend P (.caller call.command) call.frames { e with blocked := e.blocked.eraseIdx k }) := by
  by_cases hp : e.pending = none
  · obtain hcall | ⟨call, hcall⟩ := Option.eq_none_or_eq_some e.blocked[k]?
    · exact .inl (grantBlocked_of_nobody (.inr hcall))
    · by_cases hctrl : e.ctrl = .stopped
      · exact .inr (.inl ⟨call, hp, hcall, hctrl, grantBlocked_stopped hp hcall hctrl⟩)
      · exact .inr (.inr ⟨call, hp, hcall, hctrl, grantBlocked_running hp hcall rfl hctrl⟩)
  · exact .inl (grantBlocked_of_nobody (.inl hp))

/-- The handshake does nothing, or its send starts. -/
theorem startHandshake_cases (P : SenderParams) (e : Env) :
    startHandshake P e = e ∨
    (e.ctrl = .starting ∧ e.handshakeSent = false ∧ e.pending = none ∧
      startHandshake P e =
        startSend P .handshake [commandFrame Config.opBurstEn Config.burstEnPayload] { e with handshakeSent := true }) := by
  by_cases h : e.ctrl = .starting ∧ e.handshakeSent = false ∧ e.pending = none
  · obtain ⟨hctrl, hsent, hfree⟩ := h
    exact .inr ⟨hctrl, hsent, hfree, startHandshake_starting hctrl hsent hfree⟩
  · exact .inl (if_neg h)

theorem readFailed_stopped (h : e.ctrl = .stopped) : readFailed e = e := if_pos h

theorem readFailed_free (h : e.ctrl ≠ .stopped) (hfree : e.pending = none) : readFailed e = { e with ctrl := .stopped } := by
  simp [readFailed, h, hfree]

theorem readFailed_busy {p : PendingSend} (h : e.ctrl ≠ .stopped) (hp : e.pending = some p) :
    readFailed e = ({ e with ctrl := .stopped }).finish p.source (.failed .transportClosed) := by
  simp [readFailed, h, hp]

/-- A failed read finds the loop stopped, or stops it and fails the outstanding send, if any. -/
theorem readFailed_cases (e : Env) :
    (e.ctrl = .stopped ∧ readFailed e = e) ∨
    (e.ctrl ≠ .stopped ∧ e.pending = none ∧ readFailed e = { e with ctrl := .stopped }) ∨
    (∃ p, e.ctrl ≠ .stopped ∧ e.pending = some p ∧
      readFailed e = ({ e with ctrl := .stopped }).finish p.source (.failed .transportClosed)) := by
  by_cases h : e.ctrl = .stopped
  · exact .inl ⟨h, readFailed_stopped h⟩
  · obtain hp | ⟨p, hp⟩ := Option.eq_none_or_eq_some e.pending
    · exact .inr (.inl ⟨h, hp, readFailed_free h hp⟩)
    · exact .inr (.inr ⟨p, h, hp, readFailed_busy h hp⟩)

/-! ### What a step does to the environment -/

/-- An instruction neither touches the environment nor delivers anything. -/
theorem exec_env {i : Instr} (h : exec i s = .next t) : t.env = s.env ∧ t.delivered = s.delivered := by
  obtain ⟨bs, hbs⟩ | ⟨c, rfl⟩ := rxBytes_or_ofCommand i
  · rw [exec_eq_feedAll hbs] at h
    cases h
    exact ⟨feedAll_env bs s, feedAll_delivered bs s⟩
  · rw [exec_ofCommand] at h
    cases h
    exact ⟨rfl, rfl⟩

/-- A step leaves the environment and what was delivered, or routes the events of a running receive loop, or is a construction,
or an event of the environment. -/
theorem step_env_cases (h : step s = .next t) :
    (t.env = s.env ∧ t.delivered = s.delivered) ∨
    (s.env.ctrl ≠ .stopped ∧ ∃ evs : List DecodedEvent, t.env = evs.foldl (routeEvent Config.senderParams) s.env) ∨
    (∃ id rest, s.inputs = .construct id :: rest ∧ t = construct id (s.advance rest)) ∨
    (∃ i rest, s.inputs = .env i :: rest ∧ t = { s.advance rest with env := envStep Config.senderParams i s.env }) := by
  obtain ⟨-, rfl⟩ | ⟨i, rest, hin, hrun⟩ := step_cases h
  · exact .inl ⟨rfl, rfl⟩
  obtain ⟨w, rfl, hw⟩ | ⟨c, rfl, hc⟩ | ⟨-, rfl⟩ | ⟨-, rfl⟩ | ⟨id, rfl, rfl⟩ | ⟨e, rfl, rfl⟩ := runInput_cases hrun
  · obtain ⟨-, -, rfl⟩ | ⟨-, hctrl, i, u, -, hu, rfl⟩ | ⟨-, i, -, hi⟩ := runWord_cases hw
    · exact .inl ⟨rfl, rfl⟩
    · refine .inr (.inl ⟨hctrl, u.emitted, ?_⟩)
      rw [routeEvents_env, (exec_env hu).1, State.advance_env]
    · exact .inl (exec_env (s := s.advance rest) hi)
  · exact .inl (exec_env (s := s.advance rest) hc)
  · exact .inl ⟨rfl, rfl⟩
  · exact .inl ⟨rfl, rfl⟩
  · exact .inr (.inr (.inl ⟨id, rest, hin, rfl⟩))
  · exact .inr (.inr (.inr ⟨e, rest, hin, rfl⟩))

/-! ### The lifecycle -/

theorem finish_failed_ctrl (src : SendSource) (err : ErrorKind) (e : Env) :
    (e.finish src (.failed err)).ctrl = e.ctrl := by
  cases src <;> simp [Env.finish]

theorem attempt_ctrl (P : SenderParams) (p : PendingSend) (e : Env) :
    (attempt P p e).ctrl = e.ctrl ∨ (attempt P p e).ctrl = .stopped := by
  obtain ⟨-, h⟩ | ⟨-, h⟩ := attempt_cases P p e
  · exact .inl (by rw [h])
  · exact .inr (by rw [h, finish_failed_ctrl])

/-- A caller's send that starts leaves the controller as it is, or its write fails and the controller stops. -/
theorem startSend_caller_ctrl (P : SenderParams) (c : Command) (fs : List Frame) (e : Env) :
    (startSend P (.caller c) fs e).ctrl = e.ctrl ∨ (startSend P (.caller c) fs e).ctrl = .stopped := by
  cases fs with
  | nil => exact .inl rfl
  | cons f rest => exact attempt_ctrl P _ e

/-- The last frame of the handshake of a `Starting` controller stands acknowledged (45_environment R187). -/
def HandshakeAcked (e : Env) : Prop :=
  e.ctrl = .starting ∧ ∃ p d, e.pending = some p ∧ p.source = .handshake ∧ p.phase = .waiting d ∧ e.ackSlot = true ∧
    p.rest = []

/-- A turn of the sender leaves the controller as it is, stops it, or acknowledges the last frame of the handshake. -/
theorem senderTurn_ctrl (P : SenderParams) (e : Env) :
    (senderTurn P e).ctrl = e.ctrl ∨ (senderTurn P e).ctrl = .stopped ∨
    (HandshakeAcked e ∧ (senderTurn P e).ctrl = .ready) := by
  obtain h | ⟨p, d, hp, hphase, hslot, hrest, h⟩ | ⟨p, d, f, rest, -, -, -, -, h⟩ | ⟨p, -, -, -, h⟩ | ⟨p, -, -, -, h⟩ :=
    senderTurn_cases P e
  · exact .inl (by rw [h])
  · rw [h]
    obtain hctrl | ⟨hsource, -, hstarting, hready⟩ := finish_ctrl p.source .ok e
    · exact .inl hctrl
    · exact .inr (.inr ⟨⟨hstarting, p, d, hp, hsource, hphase, hslot, hrest⟩, hready⟩)
  · rw [h]
    exact (attempt_ctrl P _ { e with ackSlot := false }).imp_right .inl
  · rw [h]
    exact (attempt_ctrl P _ e).imp_right .inl
  · exact .inl (by rw [h, finish_failed_ctrl])

/-- The same of every event of the environment. -/
theorem envStep_ctrl (P : SenderParams) (i : EnvInput) (e : Env) :
    (envStep P i e).ctrl = e.ctrl ∨ (envStep P i e).ctrl = .stopped ∨
    (HandshakeAcked e ∧ (envStep P i e).ctrl = .ready) := by
  cases i with
  | issue c =>
    obtain ⟨r, draws, h⟩ | ⟨fs, p, -, -, -, h⟩ | ⟨fs, -, -, -, h⟩ := issueCommand_cases P c e
    · exact .inl (by rw [envStep, h])
    · exact .inl (by rw [envStep, h])
    · rw [envStep, h]
      exact (startSend_caller_ctrl P c fs e).imp_right .inl
  | handshake =>
    obtain h | ⟨-, -, -, h⟩ := startHandshake_cases P e
    · exact .inl (by rw [envStep, h])
    · rw [envStep, h]
      exact (attempt_ctrl P _ { e with handshakeSent := true }).imp_right .inl
  | sender => exact senderTurn_ctrl P e
  | grant k =>
    obtain h | ⟨call, -, -, -, h⟩ | ⟨call, -, -, -, h⟩ := grantBlocked_cases P k e
    · exact .inl (by rw [envStep, h])
    · exact .inl (by rw [envStep, h]; rfl)
    · rw [envStep, h]
      exact (startSend_caller_ctrl P _ _ { e with blocked := e.blocked.eraseIdx k }).imp_right .inl
  | tick =>
    obtain ⟨h, -⟩ | ⟨p, d, -, -, -, -, h⟩ := tick_cases e <;> exact .inl (by rw [envStep, h])
  | subscribe ch => exact .inl rfl
  | readError =>
    obtain ⟨-, h⟩ | ⟨-, -, h⟩ | ⟨p, -, -, h⟩ := readFailed_cases e
    · exact .inl (by rw [envStep, h])
    · exact .inr (.inl (by rw [envStep, h]))
    · exact .inr (.inl (by rw [envStep, h, finish_failed_ctrl]))
  | failWrite => exact .inl rfl
  | shutdown => exact .inr (.inl rfl)

/-- A construction acts only on a stopped controller, and makes a new one `Starting`. -/
theorem construct_ctrl (id : Nat) (s : State) :
    (construct id s).env.ctrl = s.env.ctrl ∨ s.env.ctrl = .stopped ∧ (construct id s).env.ctrl = .starting := by
  obtain h | ⟨hctrl, -, -, h⟩ := construct_cases id s
  · exact .inl (by rw [h])
  · exact .inr ⟨hctrl, by rw [h]; rfl⟩

/-- A step leaves the lifecycle, stops the controller, makes it `Ready` by its handshake, or constructs a new one. -/
theorem step_ctrl_cases (h : step s = .next t) :
    t.env.ctrl = s.env.ctrl ∨ t.env.ctrl = .stopped ∨ (HandshakeAcked s.env ∧ t.env.ctrl = .ready) ∨
    (s.env.ctrl = .stopped ∧ t.env.ctrl = .starting ∧ ∃ id rest, s.inputs = .construct id :: rest) := by
  obtain ⟨henv, -⟩ | ⟨-, evs, henv⟩ | ⟨id, rest, hin, rfl⟩ | ⟨i, rest, -, rfl⟩ := step_env_cases h
  · exact .inl (by rw [henv])
  · refine .inl ?_
    rw [henv]
    exact (routeEvents_frame _ evs s.env).1
  · obtain hctrl | ⟨hstopped, hstarting⟩ := construct_ctrl id (s.advance rest)
    · exact .inl hctrl
    · exact .inr (.inr (.inr ⟨hstopped, hstarting, id, rest, hin⟩))
  · exact (envStep_ctrl Config.senderParams i s.env).imp_right (.imp_right .inl)

/-- Settles O56: of the ways a step moves the lifecycle, one alone enters `Ready` and one alone leaves `Stopped`. -/
theorem lifecycleOnlyMovesForward : Obligations.LifecycleOnlyMovesForward := by
  intro s t h
  obtain hsame | hstop | ⟨hacked, hready⟩ | ⟨hstopped, hstarting, hin⟩ := step_ctrl_cases h
  · exact ⟨fun hs => .inl (hsame.trans hs), fun ht hs => absurd (hsame.symm.trans ht) hs, fun ht => .inl (hsame.symm.trans ht)⟩
  · rw [hstop]
    exact ⟨fun _ => .inl rfl, nofun, nofun⟩
  · obtain ⟨hstarting, hwait⟩ := hacked
    rw [hready, hstarting]
    exact ⟨nofun, fun _ _ => ⟨rfl, hwait⟩, nofun⟩
  · rw [hstopped, hstarting]
    exact ⟨fun _ => .inr hin, nofun, fun _ => .inr ⟨rfl, hin⟩⟩

/-! ### A stopped controller -/

theorem openTransport_stopped (h : e.ctrl = .stopped) : e.openTransport = none := if_pos h

theorem attempt_store (P : SenderParams) (p : PendingSend) (e : Env) : (attempt P p e).store = e.store := by
  obtain ⟨-, h⟩ | ⟨-, h⟩ := attempt_cases P p e <;> simp [h]

theorem attempt_txStream_stopped (P : SenderParams) (p : PendingSend) (h : e.ctrl = .stopped) :
    (attempt P p e).txStream = e.txStream := by
  rw [attempt_of_not_canWrite p (canWrite_stopped h), finish_txStream]

/-- The sender of a stopped controller writes nothing, and no turn touches the store. -/
theorem senderTurn_stopped (P : SenderParams) (h : e.ctrl = .stopped) :
    (senderTurn P e).txStream = e.txStream ∧ (senderTurn P e).store = e.store := by
  obtain hturn | ⟨p, d, -, -, -, -, hturn⟩ | ⟨p, d, f, rest, -, -, -, -, hturn⟩ | ⟨p, -, -, -, hturn⟩ | ⟨p, -, -, -, hturn⟩ :=
    senderTurn_cases P e <;> rw [hturn]
  · exact ⟨rfl, rfl⟩
  · exact ⟨finish_txStream _ _ e, finish_store _ _ e⟩
  · exact ⟨attempt_txStream_stopped (e := { e with ackSlot := false }) P _ h, attempt_store P _ { e with ackSlot := false }⟩
  · exact ⟨attempt_txStream_stopped P _ h, attempt_store P _ e⟩
  · exact ⟨finish_txStream _ _ e, finish_store _ _ e⟩

/-- No event of the environment makes a stopped controller write, or touches its store (45_environment R189; log 13). -/
theorem envStep_stopped (P : SenderParams) (i : EnvInput) (h : e.ctrl = .stopped) :
    (envStep P i e).txStream = e.txStream ∧ (envStep P i e).store = e.store := by
  cases i with
  | issue c =>
    rw [envStep, issueCommand_stopped c h]
    exact ⟨rfl, rfl⟩
  | handshake =>
    rw [envStep, startHandshake_not_due (.inl (by simp [h]))]
    exact ⟨rfl, rfl⟩
  | sender => exact senderTurn_stopped P h
  | grant k =>
    obtain hgrant | ⟨call, -, -, -, hgrant⟩ | ⟨call, -, -, hrun, -⟩ := grantBlocked_cases P k e
    · rw [envStep, hgrant]
      exact ⟨rfl, rfl⟩
    · rw [envStep, hgrant]
      exact ⟨rfl, rfl⟩
    · exact absurd h hrun
  | tick =>
    obtain ⟨htick, -⟩ | ⟨p, d, -, -, -, -, htick⟩ := tick_cases e <;> rw [envStep, htick] <;> exact ⟨rfl, rfl⟩
  | subscribe ch => exact ⟨rfl, rfl⟩
  | readError =>
    rw [envStep, readFailed_stopped h]
    exact ⟨rfl, rfl⟩
  | failWrite => exact ⟨rfl, rfl⟩
  | shutdown => exact ⟨rfl, rfl⟩

/-- Settles O57: a failed read with and without an outstanding send; the shutdown; and the steps of a stopped controller, none
of which routes an event. -/
theorem stoppedControllerIsInert : Obligations.StoppedControllerIsInert := by
  refine ⟨fun P e hrun => ?_, fun P e => ⟨rfl, openTransport_stopped rfl, rfl, rfl, rfl⟩, fun s t hstopped _ hno h => ?_⟩
  · obtain hp | ⟨p, hp⟩ := Option.eq_none_or_eq_some e.pending
    · rw [envStep, readFailed_free hrun hp]
      exact ⟨rfl, hp, openTransport_stopped rfl, rfl, fun _ => rfl, by simp [hp], by simp [hp]⟩
    · have hstop : (readFailed e).ctrl = .stopped := by rw [readFailed_busy hrun hp, finish_failed_ctrl]
      refine ⟨hstop, ?_, openTransport_stopped hstop, ?_, by simp [hp], fun q c hq hsource => ?_, fun q hq hsource => ?_⟩
      · rw [envStep, readFailed_busy hrun hp, finish_pending]
      · rw [envStep, readFailed_busy hrun hp, finish_txStream]
      · rw [envStep, readFailed_busy hrun hq, hsource]
        rfl
      · rw [envStep, readFailed_busy hrun hq, hsource]
        exact ⟨rfl, rfl⟩
  · have hissue : ∀ c rest, s.inputs = .env (.issue c) :: rest →
        ∃ err, t.env.results = s.env.results ++ [⟨c, .failed err⟩] := by
      intro c rest hin
      rw [step_cons hin] at h
      cases h
      exact ⟨_, congrArg Env.results (issueCommand_stopped c hstopped)⟩
    obtain ⟨henv, hdelivered⟩ | ⟨hrun, -⟩ | ⟨id, rest, hin, -⟩ | ⟨i, rest, hin, rfl⟩ := step_env_cases h
    · exact ⟨by rw [henv], hdelivered, by rw [henv], hissue⟩
    · exact absurd hstopped hrun
    · exact absurd hin (hno id rest)
    · obtain ⟨htx, hstore⟩ := envStep_stopped Config.senderParams i hstopped
      exact ⟨htx, rfl, hstore, hissue⟩

/-! ### The send section -/

/-- The outstanding send `q` is the earlier one `p`, on its frame still or on the next of its own. -/
def SendContinues (p q : PendingSend) : Prop :=
  q.source = p.source ∧ (q.frame = p.frame ∧ q.rest = p.rest ∨ p.rest = q.frame :: q.rest)

theorem SendContinues.refl (p : PendingSend) : SendContinues p p := ⟨rfl, .inl ⟨rfl, rfl⟩⟩

theorem sendContinues_of_same {p q : PendingSend} {e' : Env} (hsame : e'.pending = e.pending) (hp : e.pending = some p)
    (hq : e'.pending = some q) : SendContinues p q := by
  obtain rfl : p = q := Option.some.inj (hp.symm.trans (hsame.symm.trans hq))
  exact .refl p

/-- What is outstanding after an attempt is the send it was made for. -/
theorem attempt_pending {p q : PendingSend} (hq : (attempt P p e).pending = some q) :
    q = { p with phase := .waiting (e.now + P.ackWindow) } := by
  obtain ⟨-, h⟩ | ⟨-, h⟩ := attempt_cases P p e
  · rw [h] at hq
    exact (Option.some.inj hq).symm
  · rw [h, finish_pending] at hq
    cases hq

theorem senderTurn_continues {p q : PendingSend} (hp : e.pending = some p) (hq : (senderTurn P e).pending = some q) :
    SendContinues p q := by
  obtain h | ⟨p', d, -, -, -, -, h⟩ | ⟨p', d, f, rest, hp', -, -, hrest, h⟩ | ⟨p', hp', -, -, h⟩ | ⟨p', -, -, -, h⟩ :=
    senderTurn_cases P e <;> rw [h] at hq
  · exact sendContinues_of_same rfl hp hq
  · simp at hq
  · obtain rfl : p = p' := Option.some.inj (hp.symm.trans hp')
    rw [attempt_pending hq]
    exact ⟨rfl, .inr hrest⟩
  · obtain rfl : p = p' := Option.some.inj (hp.symm.trans hp')
    rw [attempt_pending hq]
    exact ⟨rfl, .inl ⟨rfl, rfl⟩⟩
  · simp at hq

/-- While a send is outstanding no other enters the section (45_environment R190). -/
theorem envStep_continues {i : EnvInput} {p q : PendingSend} (hp : e.pending = some p)
    (hq : (envStep P i e).pending = some q) : SendContinues p q := by
  have hbusy : e.pending ≠ none := by simp [hp]
  cases i with
  | issue c =>
    obtain ⟨r, draws, h⟩ | ⟨fs, p', -, -, -, h⟩ | ⟨fs, -, -, hfree, -⟩ := issueCommand_cases P c e
    · exact sendContinues_of_same (congrArg Env.pending h) hp hq
    · exact sendContinues_of_same (congrArg Env.pending h) hp hq
    · exact absurd hfree hbusy
  | handshake =>
    have h : startHandshake P e = e := startHandshake_not_due (.inr (.inr hbusy))
    exact sendContinues_of_same (congrArg Env.pending h) hp hq
  | sender => exact senderTurn_continues hp hq
  | grant k =>
    have h : grantBlocked P k e = e := grantBlocked_of_nobody (.inl hbusy)
    exact sendContinues_of_same (congrArg Env.pending h) hp hq
  | tick =>
    obtain ⟨h, -⟩ | ⟨p', d, hp', -, -, -, h⟩ := tick_cases e
    · exact sendContinues_of_same (congrArg Env.pending h) hp hq
    · obtain rfl : p = p' := Option.some.inj (hp.symm.trans hp')
      rw [envStep, h] at hq
      cases hq
      exact ⟨rfl, .inl ⟨rfl, rfl⟩⟩
  | subscribe ch => exact sendContinues_of_same rfl hp hq
  | readError =>
    obtain ⟨-, h⟩ | ⟨-, hfree, -⟩ | ⟨p', -, -, h⟩ := readFailed_cases e
    · exact sendContinues_of_same (congrArg Env.pending h) hp hq
    · exact absurd hfree hbusy
    · rw [envStep, h, finish_pending] at hq
      cases hq
  | failWrite => exact sendContinues_of_same rfl hp hq
  | shutdown => exact sendContinues_of_same rfl hp hq

/-- Settles O58: routing and what feeds no event leave the outstanding send, a construction finds none, and an event of the
environment goes on with it. -/
theorem sendSectionIsExclusive : Obligations.SendSectionIsExclusive := by
  intro s t p q h hp hq
  obtain ⟨henv, -⟩ | ⟨-, evs, henv⟩ | ⟨id, rest, -, rfl⟩ | ⟨i, rest, -, rfl⟩ := step_env_cases h
  · exact sendContinues_of_same (congrArg Env.pending henv) hp hq
  · obtain ⟨-, hpending, -⟩ := routeEvents_frame Config.senderParams evs s.env
    exact sendContinues_of_same ((congrArg Env.pending henv).trans hpending) hp hq
  · obtain hidle | ⟨-, hfree, -⟩ := construct_cases id (s.advance rest)
    · exact sendContinues_of_same (congrArg (fun u : State => u.env.pending) hidle) hp hq
    · exact absurd hfree (by simp [hp])
  · exact envStep_continues hp hq

end Sys2Proof.Machine
end

section
/-! PROOFS, family 60_exceptions. What a step does to the whole state is said once, and read off from there: the one event of at
most three bytes, and the invariant, each clause of which is kept by every operation that moves a field it speaks of. -/

namespace Sys2Proof.Machine

open Sys2Proof

variable {P : SenderParams} {e : Env} {s t : State} {src : SendSource} {p : PendingSend}

/-! ### The two blocks -/

/-- Settles O24: the error is SetServo's, and its range check is the bounds -90 and 90. -/
theorem outOfRangeExactly : Obligations.OutOfRangeExactly := by
  refine fun c e => ⟨fun h => ?_, ?_⟩
  · obtain ⟨he, which, position, hc, hrange⟩ := eq_setServo_of_encodeCommand_error h
    rw [servoInRange_iff] at hrange
    exact ⟨he, which, position, hc, by omega⟩
  · rintro ⟨rfl, which, position, rfl, hrange⟩
    exact encodeSetServo_outOfRange which hrange

/-- The RX block does not see the results of the TX block (60_exceptions R209). -/
theorem feed_returnTx (b : Byte) (r : TxResult) (s : State) : feed b (s.returnTx r) = (feed b s).returnTx r := by
  cases h : s.rs with
  | idle =>
    simp only [feed_idle h, feed_idle (s := s.returnTx r) h, apply_ite (State.returnTx r)]
    rfl
  | firstAckHeaderSeen =>
    simp only [feed_firstAck h, feed_firstAck (s := s.returnTx r) h, apply_ite (State.returnTx r)]
    rfl
  | secondAckHeaderSeen =>
    simp only [feed_secondAck h, feed_secondAck (s := s.returnTx r) h, apply_ite (State.returnTx r)]
    rfl
  | burstHeaderSeen => rw [feed_burstHeader h, feed_burstHeader (s := s.returnTx r) h]; rfl
  | burstFirstByteSeen => rw [feed_burstFirst h, feed_burstFirst (s := s.returnTx r) h]; rfl

theorem feedAll_returnTx (bs : List Byte) (r : TxResult) (s : State) :
    feedAll bs (s.returnTx r) = (feedAll bs s).returnTx r := by
  induction bs generalizing s with
  | nil => rfl
  | cons b bs ih => rw [feedAll_cons, feed_returnTx, ih, feedAll_cons]

/-- Settles O30: the one feeds bytes, the other returns a result, and neither sees what the other moves. -/
theorem rxAndTxCommute : Obligations.RxAndTxCommute := by
  rintro i j bs c s hbs rfl
  refine ⟨feedAll bs s, s.returnTx (encodeCommand c), (feedAll bs s).returnTx (encodeCommand c),
    exec_eq_feedAll hbs, exec_ofCommand c _, exec_ofCommand c s, ?_⟩
  rw [exec_eq_feedAll hbs, feedAll_returnTx]

/-! ### What a step does to the whole state -/

theorem rxBytes_length_le {i : Instr} {bs : List Byte} (h : rxBytes i = some bs) : bs.length ≤ 3 := by
  cases i <;> cases h <;> simp

/-- Everything a step can do once the head of the inputs is taken off: nothing, at most three bytes fed and their events routed,
a result returned, a reset, a construction, or an event of the environment. -/
theorem step_state_cases (h : step s = .next t) :
    ∃ rest : List Input,
      t = s.advance rest ∨
      (∃ bs : List Byte, bs.length ≤ 3 ∧ t = routeEvents Config.senderParams (feedAll bs (s.advance rest))) ∨
      (∃ c, t = (s.advance rest).returnTx (encodeCommand c)) ∨
      t = rxReset (s.advance rest) ∨
      (∃ id, t = construct id (s.advance rest)) ∨
      (∃ i, t = { s.advance rest with env := envStep Config.senderParams i s.env }) := by
  obtain ⟨-, rfl⟩ | ⟨i, rest, -, hrun⟩ := step_cases h
  · exact ⟨t.inputs, .inl rfl⟩
  refine ⟨rest, ?_⟩
  obtain ⟨w, rfl, hw⟩ | ⟨c, rfl, hc⟩ | ⟨-, rfl⟩ | ⟨-, rfl⟩ | ⟨id, rfl, rfl⟩ | ⟨i, rfl, rfl⟩ := runInput_cases hrun
  · obtain ⟨-, -, rfl⟩ | ⟨hreceived, -, i, u, hd, hu, rfl⟩ | ⟨hcommand, i, hd, hi⟩ := runWord_cases hw
    · exact .inl rfl
    · obtain ⟨bs, hbs⟩ := rxBytes_of_received hreceived hd
      rw [exec_eq_feedAll hbs] at hu
      cases hu
      exact .inr (.inl ⟨bs, rxBytes_length_le hbs, rfl⟩)
    · obtain ⟨c, rfl⟩ := decode_ofCommand hcommand hd
      rw [exec_ofCommand] at hi
      cases hi
      exact .inr (.inr (.inl ⟨c, rfl⟩))
  · rw [exec_ofCommand] at hc
    cases hc
    exact .inr (.inr (.inl ⟨c, rfl⟩))
  · exact .inl rfl
  · exact .inr (.inr (.inr (.inl rfl)))
  · exact .inr (.inr (.inr (.inr (.inl ⟨id, rfl⟩))))
  · exact .inr (.inr (.inr (.inr (.inr ⟨i, rfl⟩))))

/-! ### The events of one step -/

/-- A byte emits nothing, or it ends a frame: one event, and the RX block is back in `Idle`. -/
theorem feed_emits_cases (b : Byte) (s : State) :
    (feed b s).emitted = s.emitted ∨ (feed b s).rs = .idle ∧ ∃ ev, (feed b s).emitted = s.emitted ++ [ev] := by
  obtain ⟨r, h, -, -⟩ | ⟨-, h⟩ | ⟨-, h⟩ | ⟨-, -, h⟩ := feed_cases b s <;> rw [h]
  · exact .inl rfl
  · exact .inl rfl
  · exact .inr ⟨rfl, _, rfl⟩
  · exact .inr ⟨rfl, _, rfl⟩

theorem feedAll_emitted_of_idle (bs : List Byte) (h : s.rs = .idle) (hlen : bs.length ≤ 2) :
    (feedAll bs s).emitted = s.emitted := by
  match bs, hlen with
  | [], _ => rfl
  | [x], _ => exact feed_emitted_of_not_last (by simp [h]) (by simp [h])
  | [x, y], _ => exact feedAll_pair_emitted x y h

/-- Three bytes emit at most one event: after the byte that ends a frame, two are too few to end another. -/
theorem feedAll_emitted_cases (bs : List Byte) (s : State) (hlen : bs.length ≤ 3) :
    (feedAll bs s).emitted = s.emitted ∨ ∃ ev, (feedAll bs s).emitted = s.emitted ++ [ev] := by
  induction bs generalizing s with
  | nil => exact .inl rfl
  | cons b bs ih =>
    have hbs : bs.length ≤ 2 := Nat.le_of_succ_le_succ hlen
    rw [feedAll_cons]
    obtain h | ⟨hidle, ev, h⟩ := feed_emits_cases b s
    · rw [← h]
      exact ih (feed b s) (Nat.le_succ_of_le hbs)
    · exact .inr ⟨ev, (feedAll_emitted_of_idle bs hidle hbs).trans h⟩

/-- Settles O43: of the ways a step goes on, only fed bytes deliver, and what they emit is routed in that step. -/
theorem atMostOneEventPerStep : Obligations.AtMostOneEventPerStep := by
  intro s t hnone h
  obtain ⟨rest, rfl | ⟨bs, hlen, rfl⟩ | ⟨c, rfl⟩ | rfl | ⟨id, rfl⟩ | ⟨i, rfl⟩⟩ := step_state_cases h
  · exact ⟨hnone, .inl rfl⟩
  · refine ⟨rfl, ?_⟩
    rw [routeEvents_delivered, routeEvents_env, feedAll_delivered, feedAll_env]
    obtain hemit | ⟨ev, hemit⟩ := feedAll_emitted_cases bs (s.advance rest) hlen
    · rw [hemit, State.advance_emitted, hnone]
      exact .inl (List.append_nil _)
    · rw [hemit, State.advance_emitted, hnone]
      cases ev with
      | ack => exact .inr (.inl ⟨rfl, rfl⟩)
      | reading r => exact .inr (.inr ⟨r, rfl, rfl⟩)
  · exact ⟨hnone, .inl rfl⟩
  · exact ⟨hnone, .inl rfl⟩
  · exact ⟨(construct_emitted id _).trans hnone, .inl (construct_delivered id _)⟩
  · exact ⟨hnone, .inl rfl⟩

/-! ### Readings name reportable channels -/

/-- Every reading among the events names a channel that the RX block can report (41_rx_burst R117). -/
def ReadingsOk (evs : List DecodedEvent) : Prop := ∀ r, DecodedEvent.reading r ∈ evs → ChannelOk r.channel

theorem channelOk_channelOfCode (c : BitVec Config.chanW) : ChannelOk (channelOfCode c) := by
  by_cases h : 8 ≤ c.toNat
  · rw [channelOfCode_unmapped h]
    exact h
  · obtain ⟨n, hn, rfl⟩ : ∃ n < 8, c = BitVec.ofNat 4 n := ⟨c.toNat, by omega, (BitVec.ofNat_toNat 4 c).symm⟩
    interval_cases n <;> trivial

theorem readingsOk_append {evs later : List DecodedEvent} (h : ReadingsOk evs) (hlater : ReadingsOk later) :
    ReadingsOk (evs ++ later) :=
  fun r hr => (List.mem_append.1 hr).elim (h r) (hlater r)

theorem readingsOk_feed (b : Byte) (h : ReadingsOk s.emitted) : ReadingsOk (feed b s).emitted := by
  obtain ⟨r, hf, -, -⟩ | ⟨-, hf⟩ | ⟨-, hf⟩ | ⟨-, -, hf⟩ := feed_cases b s <;> rw [hf]
  · exact h
  · exact h
  · refine readingsOk_append h fun r hr => ?_
    cases List.mem_singleton.1 hr
    exact channelOk_channelOfCode _
  · exact readingsOk_append h fun r hr => nomatch List.mem_singleton.1 hr

theorem readingsOk_feedAll (bs : List Byte) (h : ReadingsOk s.emitted) : ReadingsOk (feedAll bs s).emitted := by
  induction bs generalizing s with
  | nil => exact h
  | cons b bs ih => exact ih (readingsOk_feed b h)

/-! ### The invariant of the environment, one update at a time -/

theorem wholeFrames_append {bytes : List Byte} {f : Frame} (h : WholeFrames bytes) (hf : wellShaped f) :
    WholeFrames (bytes ++ f.bytes) := by
  obtain ⟨fs, hfs, rfl⟩ := h
  refine ⟨fs ++ [f], fun g hg => ?_, by simp⟩
  obtain hg | hg := List.mem_append.1 hg
  · exact hfs g hg
  · exact List.mem_singleton.1 hg ▸ hf

/-- No clause speaks of the store, the results, an armed failure or the counter of errors. -/
theorem envOk_outputs (h : EnvOk P e) (store : SensorStore) (results : List CmdOutcome) (writeFails : Bool) (draws : Nat) :
    EnvOk P { e with store := store, results := results, writeFails := writeFails, draws := draws } :=
  { h with pending := fun q hq => { h.pending q hq with } }

theorem envOk_stop (h : EnvOk P e) : EnvOk P { e with ctrl := .stopped } :=
  { h with
    pending := fun q hq => { h.pending q hq with whileStarting := nofun }
    noneBlocked := nofun
    ready := nofun }

/-- The send section is left: what remains of the invariant once nothing is outstanding. -/
theorem envOk_release (h : EnvOk P e) : EnvOk P { e with pending := none, ackSlot := false } :=
  { h with
    pending := nofun
    slot := fun _ => rfl }

/-- The send section is entered, or its send goes on to its next wait. -/
theorem envOk_occupy (h : EnvOk P { e with pending := none, ackSlot := false }) (hp : PendingOk P e p) :
    EnvOk P { e with pending := some p } :=
  { h with
    pending := by
      rintro q ⟨⟩
      exact { hp with }
    slot := nofun }

theorem envOk_write {f : Frame} (h : EnvOk P e) (hf : wellShaped f) : EnvOk P { e with txStream := e.txStream ++ f.bytes } :=
  { h with
    stream := wholeFrames_append h.stream hf
    pending := fun q hq => { h.pending q hq with } }

/-- The queue of blocked callers moves within well-shaped calls, and only once the controller has been `Ready`. -/
theorem envOk_blocked {calls : List BlockedCall} (h : EnvOk P e)
    (hcalls : ∀ c ∈ calls, c ∈ e.blocked ∨ c.frames ≠ [] ∧ ∀ f ∈ c.frames, wellShaped f)
    (hnone : e.ctrl = .starting → calls = []) : EnvOk P { e with blocked := calls } :=
  { h with
    pending := fun q hq => { h.pending q hq with }
    blocked := fun c hc => (hcalls c hc).elim (h.blocked c) id
    noneBlocked := hnone }

theorem envOk_dequeue (k : Nat) (h : EnvOk P e) : EnvOk P { e with blocked := e.blocked.eraseIdx k } :=
  envOk_blocked h (fun _ hc => .inl (List.mem_of_mem_eraseIdx hc)) fun hs => by simp [h.noneBlocked hs]

theorem envOk_fillSlot (h : EnvOk P e) (hbusy : e.pending ≠ none) : EnvOk P { e with ackSlot := true } :=
  { h with
    pending := fun q hq => { h.pending q hq with inTime := nofun }
    slot := fun hfree => absurd hfree hbusy }

theorem envOk_handshakeSent (h : EnvOk P e) : EnvOk P { e with handshakeSent := true } :=
  { h with
    pending := fun q hq => { h.pending q hq with handshake := fun _ => rfl }
    ready := fun _ => rfl }

/-! ### The sender -/

/-- The end of a send, with what is outstanding left out of account. -/
theorem envOk_finish (r : CmdResult) (h : EnvOk P { e with pending := none, ackSlot := false })
    (hsent : src = .handshake → e.handshakeSent = true) : EnvOk P (e.finish src r) := by
  cases src with
  | caller c => exact { h with pending := nofun }
  | handshake =>
    refine { h with pending := nofun, noneBlocked := fun hs => h.noneBlocked ?_, ready := fun _ => hsent rfl }
    simp only [Env.finish] at hs
    split at hs
    · cases hs
    · exact hs

/-- An attempt on a send whose wait has not begun, with what was outstanding before left out of account. -/
theorem envOk_attempt (h : EnvOk P { e with pending := none, ackSlot := false })
    (hp : PendingOk P e { p with phase := .lapsed }) : EnvOk P (attempt P p e) := by
  obtain ⟨-, hattempt⟩ | ⟨-, hattempt⟩ := attempt_cases P p e <;> rw [hattempt]
  · refine envOk_occupy (e := { e with txStream := e.txStream ++ p.frame.bytes }) (envOk_write h hp.frame)
      { hp with inTime := ?_ }
    rintro d ⟨⟩ -
    exact Nat.le_add_right _ _
  · exact envOk_finish _ (envOk_outputs (envOk_stop h) e.store e.results false e.draws) hp.handshake

theorem envOk_startSend {fs : List Frame} (h : EnvOk P e) (hfs : ∀ f ∈ fs, wellShaped f)
    (hstarting : e.ctrl = .starting → src = .handshake) (hsent : src = .handshake → e.handshakeSent = true) :
    EnvOk P (startSend P src fs e) := by
  cases fs with
  | nil => exact envOk_finish .ok (envOk_release h) hsent
  | cons f rest =>
    obtain ⟨hf, hrest⟩ := List.forall_mem_cons.1 hfs
    exact envOk_attempt (envOk_release h) ⟨hf, hrest, Nat.zero_le _, nofun, hstarting, hsent⟩

theorem envOk_senderTurn (h : EnvOk P e) : EnvOk P (senderTurn P e) := by
  obtain hturn | ⟨p, d, hp, -, -, -, hturn⟩ | ⟨p, d, f, rest, hp, -, -, hrest, hturn⟩ | ⟨p, hp, -, hbudget, hturn⟩ |
    ⟨p, hp, -, -, hturn⟩ := senderTurn_cases P e <;> rw [hturn]
  · exact h
  · exact envOk_finish .ok (envOk_release h) (h.pending p hp).handshake
  · have hok := h.pending p hp
    obtain ⟨hf, hlater⟩ := List.forall_mem_cons.1 (hrest ▸ hok.rest)
    exact envOk_attempt (envOk_release (e := e) h)
      ⟨hf, hlater, Nat.zero_le _, nofun, hok.whileStarting, hok.handshake⟩
  · exact envOk_attempt (envOk_release h) { h.pending p hp with retries := hbudget, inTime := nofun }
  · exact envOk_finish _ (envOk_release h) (h.pending p hp).handshake

theorem envOk_tick (h : EnvOk P e) : EnvOk P (tick e) := by
  obtain ⟨htick, hearly⟩ | ⟨p, d, hp, -, -, -, htick⟩ := tick_cases e <;> rw [htick]
  · exact { h with
      pending := fun q hq => { h.pending q hq with
        inTime := fun d hd hslot => Nat.le_of_lt (hearly q d hq hd hslot) } }
  · refine envOk_occupy (e := { e with now := e.now + 1 }) ?_ { h.pending p hp with inTime := nofun }
    exact { envOk_release h with pending := nofun }

/-! ### Routed events -/

/-- A notification of a reportable channel goes to the list of all, and to the subscriptions of that channel after what they
have received (45_environment R177). -/
theorem envOk_notify {n : Notification} (h : EnvOk P e) (hn : ∀ c, n.channel ≠ .unmapped c) : EnvOk P (e.notify n) :=
  { h with
    pending := fun q hq => { h.pending q hq with }
    notices := by
      intro m hm
      obtain hm | hm := List.mem_append.1 hm
      · exact h.notices m hm
      · exact List.mem_singleton.1 hm ▸ hn
    subscriptions := by
      intro sub hsub
      obtain ⟨old, hold, rfl⟩ := List.mem_map.1 hsub
      have hsuffix := h.subscriptions old hold
      rw [notify_notices, List.filter_append]
      by_cases hch : old.channel = n.channel
      · obtain ⟨before, hbefore⟩ := hsuffix
        rw [hch] at hbefore
        exact ⟨before, by simp [hch, ← hbefore]⟩
      · simpa [hch, Ne.symm hch] using hsuffix }

theorem envOk_subscribe (ch : SensorChannel) (h : EnvOk P e) : EnvOk P (e.subscribe ch) :=
  { h with
    pending := fun q hq => { h.pending q hq with }
    subscriptions := by
      intro sub hsub
      obtain hsub | hsub := List.mem_append.1 hsub
      · exact h.subscriptions sub hsub
      · rw [List.mem_singleton.1 hsub]
        exact List.nil_suffix }

theorem envOk_applyReading (r : SensorReading) (h : EnvOk P e) : EnvOk P (applyReading r e) := by
  obtain hsame | ⟨v, hv, -, hchange⟩ := applyReading_cases r e
  · rw [hsame]
    exact h
  · rw [hchange]
    refine envOk_notify (envOk_outputs h _ e.results e.writeFails e.draws) fun c hc => ?_
    rw [convert_unmapped hc] at hv
    cases hv

theorem envOk_routeEvent (ev : DecodedEvent) (h : EnvOk P e) : EnvOk P (routeEvent P e ev) := by
  cases ev with
  | ack =>
    obtain hdrop | ⟨hbusy, hslot⟩ := routeAck_cases P e
    · rw [routeEvent, hdrop]
      exact h
    · rw [routeEvent, hslot]
      exact envOk_fillSlot h hbusy
  | reading r => exact envOk_applyReading r h

theorem envOk_foldl_routeEvent (evs : List DecodedEvent) (h : EnvOk P e) : EnvOk P (evs.foldl (routeEvent P) e) := by
  induction evs generalizing e with
  | nil => exact h
  | cons ev evs ih => exact ih (envOk_routeEvent ev h)

/-! ### The events of the environment, and the step -/

theorem wellShaped_of_encodeCommand {c : Command} {fs : List Frame} (hc : encodeCommand c = .frames fs) :
    ∀ f ∈ fs, wellShaped f :=
  fun f hf => everyFrameWellShaped c fs f hc hf

theorem txResultOk_encodeCommand (c : Command) : TxResultOk (encodeCommand c) := by
  cases hc : encodeCommand c with
  | frames fs => exact ⟨encodeCommand_frames_ne_nil hc, wellShaped_of_encodeCommand hc⟩
  | error err => exact (eq_setServo_of_encodeCommand_error hc).1

theorem envOk_issueCommand (c : Command) (h : EnvOk P e) : EnvOk P (issueCommand P c e) := by
  obtain ⟨r, draws, hissue⟩ | ⟨fs, p, hready, hc, -, hissue⟩ | ⟨fs, hready, hc, -, hissue⟩ := issueCommand_cases P c e <;>
    rw [hissue]
  · exact envOk_outputs h e.store _ e.writeFails draws
  · refine envOk_blocked h (fun call hcall => ?_) (by simp [hready])
    refine (List.mem_append.1 hcall).imp_right fun hnew => ?_
    rw [List.mem_singleton.1 hnew]
    exact ⟨encodeCommand_frames_ne_nil hc, wellShaped_of_encodeCommand hc⟩
  · exact envOk_startSend h (wellShaped_of_encodeCommand hc) (by simp [hready]) nofun

theorem envOk_startHandshake (h : EnvOk P e) : EnvOk P (startHandshake P e) := by
  obtain hidle | ⟨-, -, -, hstart⟩ := startHandshake_cases P e
  · rw [hidle]
    exact h
  · rw [hstart]
    exact envOk_startSend (envOk_handshakeSent h) (List.forall_mem_singleton.2 wellShaped_burstEnable) (fun _ => rfl)
      (fun _ => rfl)

theorem envOk_grantBlocked (k : Nat) (h : EnvOk P e) : EnvOk P (grantBlocked P k e) := by
  obtain hidle | ⟨call, -, -, -, hfail⟩ | ⟨call, -, hcall, -, hstart⟩ := grantBlocked_cases P k e
  · rw [hidle]
    exact h
  · rw [hfail]
    exact envOk_outputs (envOk_dequeue k h) e.store _ e.writeFails _
  · rw [hstart]
    have hmem : call ∈ e.blocked := List.mem_of_getElem? hcall
    refine envOk_startSend (envOk_dequeue k h) (h.blocked call hmem).2 (fun hstarting => ?_) nofun
    simp [h.noneBlocked hstarting] at hmem

theorem envOk_readFailed (h : EnvOk P e) : EnvOk P (readFailed e) := by
  obtain ⟨-, hread⟩ | ⟨-, -, hread⟩ | ⟨p, -, hp, hread⟩ := readFailed_cases e <;> rw [hread]
  · exact h
  · exact envOk_stop h
  · exact envOk_finish _ (envOk_release (envOk_stop h)) (h.pending p hp).handshake

theorem envOk_envStep (i : EnvInput) (h : EnvOk P e) : EnvOk P (envStep P i e) := by
  cases i with
  | issue c => exact envOk_issueCommand c h
  | handshake => exact envOk_startHandshake h
  | sender => exact envOk_senderTurn h
  | grant k => exact envOk_grantBlocked k h
  | tick => exact envOk_tick h
  | subscribe ch => exact envOk_subscribe ch h
  | readError => exact envOk_readFailed h
  | failWrite => exact envOk_outputs h e.store e.results true e.draws
  | shutdown => exact envOk_stop h

/-- The environment's initial condition, with whatever identifier, results, time and counter (log 26). -/
theorem envOk_initial (id : Nat) (results : List CmdOutcome) (now draws : Nat) :
    EnvOk P { Env.reset with transportId := id, results := results, now := now, draws := draws } where
  stream := ⟨[], nofun, rfl⟩
  pending := nofun
  slot := fun _ => rfl
  blocked := nofun
  noneBlocked := fun _ => rfl
  ready := nofun
  notices := nofun
  subscriptions := nofun

theorem inv_construct (id : Nat) (h : Inv s) : Inv (construct id s) := by
  obtain hidle | ⟨-, -, -, hnew⟩ := construct_cases id s
  · rw [hidle]
    exact h
  · rw [hnew]
    exact { h with env := envOk_initial id _ _ _ }

theorem inv_returnTx (c : Command) (h : Inv s) : Inv (s.returnTx (encodeCommand c)) :=
  { h with
    returned := by
      intro r hr
      obtain hr | hr := List.mem_append.1 hr
      · exact h.returned r hr
      · exact List.mem_singleton.1 hr ▸ txResultOk_encodeCommand c }

/-- Fed bytes emit readings of reportable channels, and routing them delivers them and empties the list. -/
theorem inv_routeEvents_feedAll (bs : List Byte) (h : Inv s) : Inv (routeEvents Config.senderParams (feedAll bs s)) where
  emitted := rfl
  returned := by
    rw [routeEvents_returned, feedAll_returned]
    exact h.returned
  delivered := by
    rw [routeEvents_delivered, feedAll_delivered]
    refine readingsOk_append h.delivered (readingsOk_feedAll bs ?_)
    rw [h.emitted]
    exact nofun
  env := by
    rw [routeEvents_env, feedAll_env]
    exact envOk_foldl_routeEvent _ h.env

/-- Settles O60: taking an input off the list moves nothing the invariant speaks of, and each way the step goes on keeps it. -/
theorem stepKeepsInvariant : Obligations.StepKeepsInvariant := by
  intro s t hs h
  obtain ⟨rest, ht⟩ := step_state_cases h
  have hrest : Inv (s.advance rest) := { hs with }
  obtain rfl | ⟨bs, -, rfl⟩ | ⟨c, rfl⟩ | rfl | ⟨id, rfl⟩ | ⟨i, rfl⟩ := ht
  · exact hrest
  · exact inv_routeEvents_feedAll bs hrest
  · exact inv_returnTx c hrest
  · exact { hrest with }
  · exact inv_construct id hrest
  · exact { hrest with env := envOk_envStep i hs.env }

end Sys2Proof.Machine
end

section
/-! PROOFS, family 70_reset_and_hazards. The state after reset, and the streams of whole burst frames: every third byte of one is
the burst header, which ends an ack sequence that was begun, and the two bytes after it are too few for another. -/

namespace Sys2Proof.Machine

open Sys2Proof

variable {s t u : State} {b : Byte}

/-! ### After reset -/

/-- Settles O44: each clause is a field of `Env.reset`. -/
theorem environmentAtReset : Obligations.EnvironmentAtReset :=
  ⟨rfl, rfl, rfl, rfl⟩

/-- Settles O59: the lists are empty after reset, and the environment is the one a construction leaves. -/
theorem invariantAtReset : Obligations.InvariantAtReset where
  emitted := rfl
  returned := nofun
  delivered := nofun
  env := envOk_initial Config.transportId [] 0 0

/-! ### Between two states no `Ack` is emitted -/

/-- `t` has the events of `s` and after them others, none of them an `Ack`. -/
def NoAckBetween (s t : State) : Prop := ∃ later, DecodedEvent.ack ∉ later ∧ t.emitted = s.emitted ++ later

theorem noAckBetween_of_same (h : t.emitted = s.emitted) : NoAckBetween s t :=
  ⟨[], List.not_mem_nil, by rw [h, List.append_nil]⟩

theorem NoAckBetween.trans (hst : NoAckBetween s t) (htu : NoAckBetween t u) : NoAckBetween s u := by
  obtain ⟨first, hfirst, ht⟩ := hst
  obtain ⟨second, hsecond, hu⟩ := htu
  exact ⟨first ++ second, by simp [hfirst, hsecond], by rw [hu, ht, List.append_assoc]⟩

theorem NoAckBetween.not_mem (h : NoAckBetween s t) (hs : DecodedEvent.ack ∉ s.emitted) : DecodedEvent.ack ∉ t.emitted := by
  obtain ⟨later, hlater, ht⟩ := h
  simp [ht, hs, hlater]

/-- A byte emits no `Ack`, unless it is the ack byte in `SecondAckHeaderSeen` (40_rx_ack R93). -/
theorem noAckBetween_feed (h : s.rs ≠ .secondAckHeaderSeen ∨ b ≠ 0xAA#8) : NoAckBetween s (feed b s) := by
  obtain ⟨r, hf, -, -⟩ | ⟨-, hf⟩ | ⟨-, hf⟩ | ⟨hrs, hb, -⟩ := feed_cases b s
  · exact noAckBetween_of_same (by rw [hf, State.goto_emitted])
  · exact noAckBetween_of_same (by rw [hf, State.goto_emitted, State.storeBuf0_emitted])
  · refine ⟨_, ?_, congrArg State.emitted hf⟩
    simp
  · exact absurd hb (h.resolve_left (not_not.2 hrs))

/-- Events are only added, so where a sequence emits no `Ack`, what is left of it after `n` bytes emits none. -/
theorem noAckBetween_feedAll_take (n : Nat) (bs : List Byte) (h : NoAckBetween s (feedAll bs s)) :
    NoAckBetween (feedAll (bs.take n) s) (feedAll bs s) := by
  obtain ⟨all, hall, hend⟩ := h
  obtain ⟨-, first, hfirst, -⟩ := feedAll_agree (bs.take n) (s := s) rfl fun _ => rfl
  obtain ⟨-, second, hsecond, -⟩ := feedAll_agree (bs.drop n) (s := feedAll (bs.take n) s) rfl fun _ => rfl
  rw [← feedAll_append, List.take_append_drop] at hsecond
  have hsplit : first ++ second = all := by
    rw [hsecond, hfirst, List.append_assoc] at hend
    exact List.append_cancel_left hend
  exact ⟨second, fun hmem => hall (hsplit ▸ List.mem_append_right first hmem), hsecond⟩

/-! ### Burst frames laid end to end -/

/-- Outside the ack states two bytes are too few for an ack sequence. -/
theorem noAckBetween_short (bs : List Byte) (hlen : bs.length ≤ 2) (h1 : s.rs ≠ .firstAckHeaderSeen)
    (h2 : s.rs ≠ .secondAckHeaderSeen) : NoAckBetween s (feedAll bs s) := by
  match bs, hlen with
  | [], _ => exact noAckBetween_of_same rfl
  | [x], _ => exact noAckBetween_feed (.inl h2)
  | [x, y], _ =>
    have hx : (feed x s).rs ≠ .secondAckHeaderSeen := fun h => h1 (feed_rs_secondAck_iff.1 h).1
    exact (noAckBetween_feed (.inl h2)).trans (noAckBetween_feed (.inl hx))

/-- In any state the burst header emits no `Ack` and leads to none of the ack states. -/
theorem noAckBetween_burstFrame (b0 b1 : Byte) (s : State) : NoAckBetween s (feedAll [Config.burstH, b0, b1] s) := by
  have h1 : (feed Config.burstH s).rs ≠ .firstAckHeaderSeen := fun h =>
    absurd (feed_rs_firstAck_iff.1 h).2 (by decide)
  have h2 : (feed Config.burstH s).rs ≠ .secondAckHeaderSeen := fun h =>
    absurd (feed_rs_secondAck_iff.1 h).2 (by decide)
  exact (noAckBetween_feed (.inr (by decide))).trans (noAckBetween_short [b0, b1] (Nat.le_refl 2) h1 h2)

theorem burstStream_cons (f : Byte × Byte) (frames : List (Byte × Byte)) :
    burstStream (f :: frames) = [Config.burstH, f.1, f.2] ++ burstStream frames := rfl

theorem noAckBetween_burstStream (frames : List (Byte × Byte)) (s : State) :
    NoAckBetween s (feedAll (burstStream frames) s) := by
  induction frames generalizing s with
  | nil => exact noAckBetween_of_same rfl
  | cons f frames ih =>
    rw [burstStream_cons, feedAll_append]
    exact (noAckBetween_burstFrame f.1 f.2 s).trans (ih _)

/-- A stream joined at any alignment is at most two bytes, none at a frame boundary, and then whole frames. -/
theorem drop_burstStream (frames : List (Byte × Byte)) (k : Nat) :
    ∃ (tail : List Byte) (rest : List (Byte × Byte)),
      (burstStream frames).drop k = tail ++ burstStream rest ∧ tail.length ≤ 2 ∧ (k % 3 = 0 → tail = []) := by
  induction frames generalizing k with
  | nil => exact ⟨[], [], by simp [burstStream], by simp, fun _ => rfl⟩
  | cons f frames ih =>
    match k with
    | 0 => exact ⟨[], f :: frames, rfl, by simp, fun _ => rfl⟩
    | 1 => exact ⟨[f.1, f.2], frames, rfl, by simp, by simp⟩
    | 2 => exact ⟨[f.2], frames, rfl, by simp, by simp⟩
    | k + 3 =>
      obtain ⟨tail, rest, hdrop, hlen, hboundary⟩ := ih k
      exact ⟨tail, rest, hdrop, hlen, fun hk => hboundary (by omega)⟩

/-- Settles O19: the whole frames emit no `Ack` in any state, and the at most two bytes before them only inside an ack
sequence begun earlier. -/
theorem noAckFromBurstFramesAlone : Obligations.NoAckFromBurstFramesAlone := by
  intro frames k s hs
  obtain ⟨tail, rest, hdrop, hlen, hboundary⟩ := drop_burstStream frames k
  have hframes : NoAckBetween (feedAll tail s) (feedAll (burstStream rest) (feedAll tail s)) :=
    noAckBetween_burstStream rest _
  rw [hdrop, List.take_append, List.take_of_length_le hlen, feedAll_append, feedAll_append]
  refine ⟨fun h1 h2 => ((noAckBetween_short tail hlen h1 h2).trans hframes).not_mem hs,
    noAckBetween_feedAll_take _ _ hframes, fun hk => hframes.not_mem ?_⟩
  rw [hboundary hk]
  exact hs

end Sys2Proof.Machine
end
